-- ==== Sys2Proof/Word.lean ====
section
/-! DEFINITION. The widths of the filter's fixed-size values (spec/00_scope.md R8): the data byte and the packed 9-bit
input word of 30_encoding.md R51. Timestamps have the configured width N and are Nats below 2^N (log entry 2). -/

namespace Sys2Proof

/-- `uint8`: the `data` field of an item or an event (R8, R50). -/
abbrev Byte := BitVec 8

/-- The packed input word `w` of R51: `w[8]` is `is_cmd`, `w[7:0]` is `data`. -/
abbrev ItemWord := BitVec 9

end Sys2Proof
end

