-- ==== Sys2Proof/Config.lean ====
section
/-! DEFINITION. The five construction constants of an instance (spec/00_scope.md R5, 10_state.md R25) and the clauses
of the configuration check by name (10_state.md R26, 60_exceptions.md R142). The check itself is
Machine/ConfigCheck.lean. The spec leaves no value undefined, so there is no free value here. -/

namespace Sys2Proof

/-- R5: the constants fixed at construction. Any values can be written down here; R26 says which are admitted. -/
structure Config where
  /-- `START`: the sentinel byte for a forced packet start. -/
  startByte : Byte
  /-- `END`: the sentinel byte for a forced packet end. -/
  endByte : Byte
  /-- `OVERFLOW`: the sentinel byte for a capture overflow. -/
  overflowByte : Byte
  /-- `NOACTION`: the sentinel byte that means no action. -/
  noactionByte : Byte
  /-- `N` (TS_WIDTH): the width of the counter and of the timestamp. -/
  tsWidth : Nat
  deriving DecidableEq, Repr

/-- The four sentinel markers by name (R11). -/
inductive Sentinel where
  | start
  | ending
  | overflow
  | noaction
  deriving DecidableEq, Repr

/-- The byte a configuration gives a sentinel. -/
def Config.sentinelByte (c : Config) : Sentinel → Byte
  | .start => c.startByte
  | .ending => c.endByte
  | .overflow => c.overflowByte
  | .noaction => c.noactionByte

/-- The clauses of `ConfigOK` (R26), each named as it fails (R142: "refuse Config(which clause failed)"). -/
inductive ConfigClause where
  /-- `N >= 1` fails. -/
  | widthZero
  /-- Bit 6 of this sentinel's byte is clear. -/
  | bit6Clear (s : Sentinel)
  /-- These two sentinels have the same byte. -/
  | sameByte (a b : Sentinel)
  deriving DecidableEq, Repr

/-- R6: the reference configuration REF, an example and not the repository's values (log entry 1). -/
def Config.ref : Config :=
  { startByte := 0xF0, endByte := 0xF1, overflowByte := 0xF2, noactionByte := 0xF3, tsWidth := 16 }

end Sys2Proof
end

