-- ==== Sys2Proof/Machine/Operands.lean ====
section
/-! DEFINITION. The fields of a data byte that the classifier reads (spec/30_encoding.md R55) and the byte built from
them. Bit 0 is the least significant bit (00_scope.md R7). -/

namespace Sys2Proof.Machine

/-- The defining bit `data[6]`: clear in a line-state byte (R55). -/
def definingBit (d : Byte) : Bool := d.getLsbD 6

/-- The line-state code `data[5:4]` (R55); it means something only where the defining bit is clear. -/
def lineStateCode (d : Byte) : BitVec 2 := d.extractLsb' 4 2

/-- The don't-care bit `data[7]` of a line-state byte (R55, R58). -/
def topBit (d : Byte) : BitVec 1 := d.extractLsb' 7 1

/-- The don't-care bits `data[3:0]` of a line-state byte (R55, R58). -/
def lowBits (d : Byte) : BitVec 4 := d.extractLsb' 0 4

/-- The line-state byte with this code: bit 6 clear, the other bits as given. -/
def lineStateByte (code : BitVec 2) (top : BitVec 1) (low : BitVec 4) : Byte :=
  top ++ 0#1 ++ code ++ low

end Sys2Proof.Machine
end

