-- ==== Sys2Proof/Machine/ConfigCheck.lean ====
section
/-! DEFINITION. The configuration check of spec/10_state.md R26, and a configuration that has passed it. An instance
exists only for an admitted configuration (60_exceptions.md R142), so the proof is part of the data and no step checks
it again ("not per item"). -/

namespace Sys2Proof.Machine

/-- `ConfigOK` of R26, clause by clause. -/
abbrev ConfigOK (c : Config) : Prop :=
  1 ≤ c.tsWidth ∧
  definingBit c.startByte = true ∧ definingBit c.endByte = true ∧
  definingBit c.overflowByte = true ∧ definingBit c.noactionByte = true ∧
  c.startByte ≠ c.endByte ∧ c.startByte ≠ c.overflowByte ∧ c.startByte ≠ c.noactionByte ∧
  c.endByte ≠ c.overflowByte ∧ c.endByte ≠ c.noactionByte ∧ c.overflowByte ≠ c.noactionByte

/-- Whether one clause of R26 fails for `c`. -/
def clauseFails (c : Config) : ConfigClause → Bool
  | .widthZero => c.tsWidth == 0
  | .bit6Clear s => !definingBit (c.sentinelByte s)
  | .sameByte a b => c.sentinelByte a == c.sentinelByte b

/-- The eleven clauses of R26 in its order: N, the four bit-6 clauses, the six pairs. -/
def allClauses : List ConfigClause :=
  [.widthZero,
   .bit6Clear .start, .bit6Clear .ending, .bit6Clear .overflow, .bit6Clear .noaction,
   .sameByte .start .ending, .sameByte .start .overflow, .sameByte .start .noaction,
   .sameByte .ending .overflow, .sameByte .ending .noaction, .sameByte .overflow .noaction]

/-- Every clause that fails, which is what a refusal names (R142; log entry 16). -/
def failedClauses (c : Config) : List ConfigClause := allClauses.filter (clauseFails c)

/-- A configuration that R26 admits. -/
structure AdmittedConfig where
  config : Config
  ok : ConfigOK config
  deriving DecidableEq, Repr

/-- REF passes the check (95_test_vectors.md K1). -/
def AdmittedConfig.ref : AdmittedConfig := ⟨Config.ref, by decide⟩

end Sys2Proof.Machine
end

