-- ==== Sys2Proof/Syntax.lean ====
section
/-! DEFINITION. The input item (spec/30_encoding.md R50), the ten item classes (R56) and the instructions: one
constructor of `Instr` per row of opcode_table.json, with the bits the class leaves open as operands. -/

namespace Sys2Proof

/-- R50: an input item. `isCmd` tells an RxCmd byte from plain data. -/
structure RawSample where
  isCmd : Bool
  data : Byte
  deriving DecidableEq, Repr

/-- The class names of R56. -/
inductive ItemClass where
  | plain
  | cmdNoaction
  | cmdStart
  | cmdEnd
  | cmdOvf
  | lsInactive
  | lsActive
  | lsReserved
  | lsError
  | cmdOther
  deriving DecidableEq, Repr

/-- An input item as an instruction. A sentinel item's byte is the configuration's, so it has no operand; a line-state
item keeps its don't-care bits `data[7]` (`top`) and `data[3:0]` (`low`), because an event carries the whole byte
(R102). -/
inductive Instr where
  /-- R92: plain packet data. -/
  | plain (data : Byte)
  /-- R93: the NOACTION sentinel. -/
  | cmdNoaction
  /-- R94: the START sentinel. -/
  | cmdStart
  /-- R96: the END sentinel. -/
  | cmdEnd
  /-- R99: the OVERFLOW sentinel. -/
  | cmdOvf
  /-- R97: line state 0. -/
  | lsInactive (top : BitVec 1) (low : BitVec 4)
  /-- R95: line state 1. -/
  | lsActive (top : BitVec 1) (low : BitVec 4)
  /-- R100: line state 2. -/
  | lsReserved (top : BitVec 1) (low : BitVec 4)
  /-- R98: line state 3. -/
  | lsError (top : BitVec 1) (low : BitVec 4)
  /-- R101: an RxCmd byte with bit 6 set that is no sentinel. -/
  | cmdOther (data : Byte)
  deriving DecidableEq, Repr

/-- The class an instruction stands for. -/
def Instr.itemClass : Instr → ItemClass
  | .plain _ => .plain
  | .cmdNoaction => .cmdNoaction
  | .cmdStart => .cmdStart
  | .cmdEnd => .cmdEnd
  | .cmdOvf => .cmdOvf
  | .lsInactive _ _ => .lsInactive
  | .lsActive _ _ => .lsActive
  | .lsReserved _ _ => .lsReserved
  | .lsError _ _ => .lsError
  | .cmdOther _ => .cmdOther

end Sys2Proof
end

