-- ==== Sys2Proof/WellFormed.lean ====
section
/-! DEFINITION. Which terms of `Instr` are items under a configuration. Only CMD_OTHER has an operand that its class
restricts (spec/30_encoding.md R56 row 10): bit 6 set, and none of the four sentinels. -/

namespace Sys2Proof

/-- Whether the operands of an instruction are ones its class has under `c`. -/
def wellFormed (c : Config) : Instr → Bool
  | .plain _ => true
  | .cmdNoaction => true
  | .cmdStart => true
  | .cmdEnd => true
  | .cmdOvf => true
  | .lsInactive _ _ => true
  | .lsActive _ _ => true
  | .lsReserved _ _ => true
  | .lsError _ _ => true
  | .cmdOther d =>
    Machine.definingBit d && d != c.noactionByte && d != c.startByte && d != c.endByte && d != c.overflowByte

end Sys2Proof
end

