-- ==== Sys2Proof/Decode.lean ====
section
/-! DEFINITION. From items to instructions and back: the packed word (spec/30_encoding.md R51), the class function
(40_classifier.md R82), the class map with masks (R56), decoding, encoding, and the item notation of R60. Every 9-bit
word decodes (R58, R80); a number that is no 9-bit word is refused by name (log entry 15). -/

namespace Sys2Proof

open Machine

/-- R51: `w = is_cmd * 0x100 + data`. -/
def packSample (r : RawSample) : ItemWord := BitVec.ofBool r.isCmd ++ r.data

/-- R51 read back: `w[8]` and `w[7:0]`. -/
def unpackWord (w : ItemWord) : RawSample := { isCmd := w.getLsbD 8, data := w.extractLsb' 0 8 }

/-- R82: `class(cmd, d)`, the tests in its order. -/
def classOf (c : Config) (r : RawSample) : ItemClass :=
  if r.isCmd = false then .plain
  else if r.data = c.noactionByte then .cmdNoaction
  else if r.data = c.startByte then .cmdStart
  else if r.data = c.endByte then .cmdEnd
  else if r.data = c.overflowByte then .cmdOvf
  else if definingBit r.data = false ∧ lineStateCode r.data = 0 then .lsInactive
  else if definingBit r.data = false ∧ lineStateCode r.data = 1 then .lsActive
  else if definingBit r.data = false ∧ lineStateCode r.data = 2 then .lsReserved
  else if definingBit r.data = false ∧ lineStateCode r.data = 3 then .lsError
  else .cmdOther

/-- The instruction of a class whose item carries the byte `d`. -/
def instrOf (k : ItemClass) (d : Byte) : Instr :=
  match k with
  | .plain => .plain d
  | .cmdNoaction => .cmdNoaction
  | .cmdStart => .cmdStart
  | .cmdEnd => .cmdEnd
  | .cmdOvf => .cmdOvf
  | .lsInactive => .lsInactive (topBit d) (lowBits d)
  | .lsActive => .lsActive (topBit d) (lowBits d)
  | .lsReserved => .lsReserved (topBit d) (lowBits d)
  | .lsError => .lsError (topBit d) (lowBits d)
  | .cmdOther => .cmdOther d

/-- The instruction an item is, under a configuration. It reads the item and the configuration only (R59). -/
def decode (c : Config) (r : RawSample) : Instr := instrOf (classOf c r) r.data

/-- Why a number is not an item. -/
inductive DecodeError where
  /-- The number has a bit above bit 8, and every item is exactly one 9-bit word (R59). -/
  | notNineBits
  deriving DecidableEq, Repr

/-- Decode a packed word given as a number. -/
def decodeWord (c : Config) (w : Nat) : Except DecodeError Instr :=
  if w < 512 then .ok (decode c (unpackWord (BitVec.ofNat 9 w))) else .error .notNineBits

/-- The item of a well-formed instruction, from R56's match values and the fields of R55. -/
def encode (c : Config) : Instr → RawSample
  | .plain d => { isCmd := false, data := d }
  | .cmdNoaction => { isCmd := true, data := c.noactionByte }
  | .cmdStart => { isCmd := true, data := c.startByte }
  | .cmdEnd => { isCmd := true, data := c.endByte }
  | .cmdOvf => { isCmd := true, data := c.overflowByte }
  | .lsInactive top low => { isCmd := true, data := lineStateByte 0 top low }
  | .lsActive top low => { isCmd := true, data := lineStateByte 1 top low }
  | .lsReserved top low => { isCmd := true, data := lineStateByte 2 top low }
  | .lsError top low => { isCmd := true, data := lineStateByte 3 top low }
  | .cmdOther d => { isCmd := true, data := d }

/-- The packed word of a well-formed instruction. -/
def encodeWord (c : Config) (i : Instr) : ItemWord := packSample (encode c i)

/-- One row of the class map of R56. -/
structure ClassRow where
  itemClass : ItemClass
  mask : ItemWord
  matchValue : ItemWord
  deriving DecidableEq, Repr

/-- A word matches a row when its bits under the mask are the match value. -/
def ClassRow.matchesWord (row : ClassRow) (w : ItemWord) : Bool := w &&& row.mask == row.matchValue

/-- The match value `0x100 + byte` of a sentinel row. -/
def sentinelMatch (b : Byte) : ItemWord := 1#1 ++ b

/-- R56: the ten rows in their order. -/
def classRows (c : Config) : List ClassRow :=
  [⟨.plain, 0x100, 0x000⟩,
   ⟨.cmdNoaction, 0x1FF, sentinelMatch c.noactionByte⟩,
   ⟨.cmdStart, 0x1FF, sentinelMatch c.startByte⟩,
   ⟨.cmdEnd, 0x1FF, sentinelMatch c.endByte⟩,
   ⟨.cmdOvf, 0x1FF, sentinelMatch c.overflowByte⟩,
   ⟨.lsInactive, 0x170, 0x100⟩,
   ⟨.lsActive, 0x170, 0x110⟩,
   ⟨.lsReserved, 0x170, 0x120⟩,
   ⟨.lsError, 0x170, 0x130⟩,
   ⟨.cmdOther, 0x140, 0x140⟩]

/-- R56: "A decoder tests the rows in this order and takes the first that matches." -/
def firstMatch (c : Config) (w : ItemWord) : Option ItemClass :=
  ((classRows c).find? fun row => row.matchesWord w).map ClassRow.itemClass

/-- The line forms of the item notation (R60). -/
inductive ItemForm where
  /-- `D 0xHH`. -/
  | d (data : Byte)
  /-- `C 0xHH`. -/
  | c (data : Byte)
  /-- `C START`, `C END`, `C OVERFLOW`, `C NOACTION`. -/
  | cSentinel (s : Sentinel)
  /-- `C LS_INACTIVE` (code 0), `C LS_ACTIVE` (1), `C LS_RESERVED` (2), `C LS_ERROR` (3). -/
  | cLineState (code : BitVec 2)
  deriving DecidableEq, Repr

/-- The word a line form stands for (R60). -/
def ItemForm.word (cfg : Config) : ItemForm → ItemWord
  | .d data => packSample { isCmd := false, data := data }
  | .c data => packSample { isCmd := true, data := data }
  | .cSentinel s => sentinelMatch (cfg.sentinelByte s)
  | .cLineState code => packSample { isCmd := true, data := lineStateByte code 0 0 }

/-- The instruction this decoder reads from a word of spec/opcode_table.json, whose sentinel rows show REF's values
(R56); `nbits` is the row's width in whole bytes, and a bit above it is 0. -/
def decodeTableWord (nbits w : Nat) : Option Instr :=
  match decodeWord Config.ref (w % 2 ^ nbits) with
  | .ok i => some i
  | .error _ => none

end Sys2Proof
end

