-- ==== Sys2Proof/Machine/State.lean ====
section
/-! DEFINITION. The filter's state (spec/10_state.md R20), its port signals (R27 to R29), the output item
(30_encoding.md R52, R54) and the state after reset (R30). `state` and `ctr` are the filter's whole state; `cfg` is the
instance's fixed configuration; `pins`, `coming` and `history` are the model's own: the input signals of the present
cycle, those of the cycles to come, and the record of the finished cycles (log entries 1 to 5). -/

namespace Sys2Proof.Machine

/-- R21: whether a packet is open. -/
inductive FilterState where
  | packetClosed
  | packetOpen
  deriving DecidableEq, Repr

/-- R54: the five kinds of event. -/
inductive EventKind where
  | plainKind
  | startKind
  | endKind
  | errKind
  | ovfKind
  deriving DecidableEq, Repr

/-- R52: the four flags of an event. -/
structure EventFlags where
  isStart : Bool
  isEnd : Bool
  isErr : Bool
  isOvf : Bool
  deriving DecidableEq, Repr

/-- R52: an output item. -/
structure PacketEvent where
  timestamp : Nat
  data : Byte
  flags : EventFlags
  deriving DecidableEq, Repr

/-- R27 to R29: the input signals of one clock cycle. -/
structure Inputs where
  rst : Bool
  inValid : Bool
  inIsCmd : Bool
  inData : Byte
  outReady : Bool
  deriving DecidableEq, Repr

/-- A cycle in which nothing is asserted: the inputs once the given ones have run out (log entry 4). -/
def Inputs.idle : Inputs :=
  { rst := false, inValid := false, inIsCmd := false, inData := 0, outReady := false }

/-- The item on the input port. -/
def Inputs.item (p : Inputs) : RawSample := { isCmd := p.inIsCmd, data := p.inData }

/-- R27, R28: the output signals of one clock cycle. -/
structure Outputs where
  inReady : Bool
  outValid : Bool
  outTs : Nat
  outData : Byte
  outFlags : EventFlags
  deriving DecidableEq, Repr

/-- What the two ports showed in one clock cycle. -/
structure PortCycle where
  inputs : Inputs
  outputs : Outputs
  deriving DecidableEq, Repr

/-- R91: the action of a decision, with the kind of the event where it emits. -/
inductive Action where
  | emit (kind : EventKind)
  | drop
  deriving DecidableEq, Repr

/-- R91: a decision, the action and the next state. -/
structure Decision where
  action : Action
  next : FilterState
  deriving DecidableEq, Repr

/-- What a cycle is, in the priority order of R145: reset first, then the presented item, else idle. -/
inductive CycleKind where
  | reset
  | item (i : Instr)
  | idle
  deriving DecidableEq, Repr

/-- The machine: the filter instance and its two ports. -/
structure State where
  /-- The instance's configuration, fixed at construction (R25). -/
  cfg : AdmittedConfig
  /-- R21: the FSM state. -/
  state : FilterState
  /-- R22: the timestamp counter, below 2^N. -/
  ctr : Nat
  /-- The model's own: the input signals of the present cycle. -/
  pins : Inputs
  /-- The model's own: the input signals of the cycles to come, the next one first. -/
  coming : List Inputs
  /-- The model's own: the finished cycles, newest first. -/
  history : List PortCycle
  deriving DecidableEq, Repr

/-- The reasons a step could stop with a fault: none. "A model of the filter has no fault outcome for any cycle of an
admitted instance" (R140). -/
inductive Fault where
  deriving DecidableEq, Repr

/-- The reasons the model answers with a refusal. -/
inductive Refusal where
  /-- An instruction without a meaning. No arm of `exec` raises it: every class has its meaning. Safe. -/
  | notModelled (mnemonic : String)
  /-- Raised by `construct` for a configuration that fails R26, with every failed clause (R142). Safe: such a
  configuration admits no instance. -/
  | badConfig (failed : List ConfigClause)
  deriving DecidableEq, Repr

/-- R30, R142, R162: an instance as constructed, in the reset state, with nothing presented and nothing recorded. -/
def State.initial (c : AdmittedConfig) : State :=
  { cfg := c, state := .packetClosed, ctr := 0, pins := Inputs.idle, coming := [], history := [] }

/-- The machine right after reset: R30 under REF (log entries 1 and 4). -/
def State.reset : State := State.initial AdmittedConfig.ref

end Sys2Proof.Machine
end

