-- ==== Sys2Proof/Machine/Flags.lean ====
section
/-! DEFINITION. Every flag the spec gives: the seven classifier flags (spec/40_classifier.md R70) and the four event
flags (30_encoding.md R54), with the packed event word of R53. None is kept as state (10_state.md R34). -/

namespace Sys2Proof.Machine

/-- R70: the classifier's flag set. -/
structure ClassifierFlags where
  isStartMarker : Bool
  isEndMarker : Bool
  isOvfMarker : Bool
  isNoactionMarker : Bool
  isActive : Bool
  isInactive : Bool
  isError : Bool
  deriving DecidableEq, Repr

/-- No flag set (R71, R79). -/
def ClassifierFlags.none : ClassifierFlags := ⟨false, false, false, false, false, false, false⟩

/-- R70 to R78: `classify(cmd, d)`. -/
def classify (c : Config) (cmd : Bool) (d : Byte) : ClassifierFlags :=
  { isStartMarker := cmd && d == c.startByte
    isEndMarker := cmd && d == c.endByte
    isOvfMarker := cmd && d == c.overflowByte
    isNoactionMarker := cmd && d == c.noactionByte
    isActive := cmd && !definingBit d && lineStateCode d == 1
    isInactive := cmd && !definingBit d && lineStateCode d == 0
    isError := cmd && !definingBit d && lineStateCode d == 3 }

/-- The flags in a list, to count those set (R81). -/
def ClassifierFlags.toList (f : ClassifierFlags) : List Bool :=
  [f.isStartMarker, f.isEndMarker, f.isOvfMarker, f.isNoactionMarker, f.isActive, f.isInactive, f.isError]

/-- All four event flags 0: plain data, and the payload of a cycle without an event (R54, R112). -/
def EventFlags.none : EventFlags := ⟨false, false, false, false⟩

/-- R54: the flags of a kind. -/
def kindFlags : EventKind → EventFlags
  | .plainKind => EventFlags.none
  | .startKind => { EventFlags.none with isStart := true }
  | .endKind => { EventFlags.none with isEnd := true }
  | .errKind => { EventFlags.none with isErr := true }
  | .ovfKind => { EventFlags.none with isOvf := true }

/-- R54: `e[3:0]`, `is_start` in the highest bit. -/
def flagsNibble (f : EventFlags) : BitVec 4 :=
  BitVec.ofBool f.isStart ++ BitVec.ofBool f.isEnd ++ BitVec.ofBool f.isErr ++ BitVec.ofBool f.isOvf

/-- R11: an event with `is_end`, `is_err` or `is_ovf` true. -/
def EventFlags.terminal (f : EventFlags) : Bool := f.isEnd || f.isErr || f.isOvf

/-- R53: the packed event word, timestamp above data above the flags. It is notation and stands on no port. -/
def packEvent (n : Nat) (e : PacketEvent) : BitVec (n + 8 + 4) :=
  BitVec.ofNat n e.timestamp ++ e.data ++ flagsNibble e.flags

/-- R21: the 1-bit encoding of the FSM state; no port shows it. -/
def FilterState.bit : FilterState → BitVec 1
  | .packetClosed => 0
  | .packetOpen => 1

end Sys2Proof.Machine
end

