-- ==== Sys2Proof/Machine/Fsm.lean ====
section
/-! DEFINITION. The packet boundary state machine: the decision function on classifier flags (spec/41_filter_fsm.md
R91), and the decision shapes of the class rules R92 to R101, from which the meanings are built. The two are written
separately; that they agree is stated in Certificates/Slice0/Obligations.lean. -/

namespace Sys2Proof.Machine

/-- R91: `decide(state, cmd, f)`, the guards in the order written. -/
def decideItem (st : FilterState) (cmd : Bool) (f : ClassifierFlags) : Decision :=
  if cmd = false then ⟨.emit .plainKind, st⟩
  else if f.isNoactionMarker then ⟨.drop, st⟩
  else match st with
    | .packetClosed =>
      if f.isStartMarker || f.isActive then ⟨.emit .startKind, .packetOpen⟩ else ⟨.drop, .packetClosed⟩
    | .packetOpen =>
      if f.isEndMarker || f.isInactive then ⟨.emit .endKind, .packetClosed⟩
      else if f.isError then ⟨.emit .errKind, .packetClosed⟩
      else if f.isOvfMarker then ⟨.emit .ovfKind, .packetClosed⟩
      else ⟨.drop, .packetOpen⟩

/-- R92: emit plain data and keep the state. -/
def passPlain (st : FilterState) : Decision := ⟨.emit .plainKind, st⟩

/-- R93, R100, R101: drop in both states. -/
def ignoreItem (st : FilterState) : Decision := ⟨.drop, st⟩

/-- R94, R95: open a packet where none is open, else drop. -/
def openPacket : FilterState → Decision
  | .packetClosed => ⟨.emit .startKind, .packetOpen⟩
  | .packetOpen => ⟨.drop, .packetOpen⟩

/-- R96 to R99: close the open packet with an event of kind `k`; drop where none is open. -/
def closePacket (k : EventKind) : FilterState → Decision
  | .packetClosed => ⟨.drop, .packetClosed⟩
  | .packetOpen => ⟨.emit k, .packetClosed⟩

end Sys2Proof.Machine
end

