-- ==== Sys2Proof/Machine/Ops.lean ====
section
/-! DEFINITION. The named operations of one clock cycle: the output signals (spec/42_handshake_timestamp.md R110 to
R112), acceptance (R113), the register updates (R115, R116), reset and idle cycles (70_reset_and_hazards.md R160, R161;
R121), and how a cycle's inputs are read (60_exceptions.md R145). The filter has no memory (20_memory.md R40) and takes
no exception (60_exceptions.md R144), so there is no operation for either. -/

namespace Sys2Proof.Machine

/-- R110: `out_valid`. -/
def outValidOf (p : Inputs) (a : Action) : Bool :=
  match a with
  | .emit _ => !p.rst && p.inValid
  | .drop => false

/-- R111: `in_ready`. -/
def inReadyOf (p : Inputs) (a : Action) : Bool :=
  if p.rst || !p.inValid then false
  else match a with
    | .emit _ => p.outReady
    | .drop => true

/-- R112: the flag outputs. -/
def outFlagsOf (p : Inputs) (a : Action) : EventFlags :=
  match a with
  | .emit k => if outValidOf p a then kindFlags k else EventFlags.none
  | .drop => EventFlags.none

/-- R110 to R112: the output signals of a cycle whose decision is to do `a`. -/
def outputsOf (ctr : Nat) (p : Inputs) (a : Action) : Outputs :=
  { inReady := inReadyOf p a
    outValid := outValidOf p a
    outTs := ctr
    outData := p.inData
    outFlags := outFlagsOf p a }

/-- R113: `accept`, the input transfer. -/
def acceptOf (p : Inputs) (a : Action) : Bool := p.inValid && inReadyOf p a

/-- R118: the counter's only arithmetic, `(ctr + 1) mod 2^N`. -/
def advanceCtr (n ctr : Nat) : Nat := (ctr + 1) % 2 ^ n

/-- R115: the counter after the active edge. -/
def nextCtr (n ctr : Nat) (p : Inputs) (a : Action) : Nat :=
  if p.rst then 0 else if acceptOf p a then advanceCtr n ctr else ctr

/-- R116: the FSM state after the active edge. -/
def nextState (st : FilterState) (p : Inputs) (d : Decision) : FilterState :=
  if p.rst then .packetClosed else if acceptOf p d.action then d.next else st

/-- One whole clock cycle with the inputs `p` and the decision `d`: the outputs are shown and recorded, the registers
take their next values, and the next cycle's inputs come to the pins. -/
def finishCycle (p : Inputs) (d : Decision) (s : State) : State :=
  { cfg := s.cfg
    state := nextState s.state p d
    ctr := nextCtr s.cfg.config.tsWidth s.ctr p d.action
    pins := s.coming.headD Inputs.idle
    coming := s.coming.tail
    history := ⟨p, outputsOf s.ctr p d.action⟩ :: s.history }

/-- The inputs of a cycle that presents an item outside reset. -/
def presentInputs (r : RawSample) (outReady : Bool) : Inputs :=
  { rst := false, inValid := true, inIsCmd := r.isCmd, inData := r.data, outReady := outReady }

/-- The cycle that presents the item `r` with the decision `d`, the consumer as the pins have it (log entry 13). It is
accepted, or stalls with the registers unchanged (R119); either way the cycle passes. -/
def presentItem (r : RawSample) (d : Decision) (s : State) : Host.Outcome State Fault Refusal :=
  .next (finishCycle (presentInputs r s.pins.outReady) d s)

/-- The decision of the present cycle, evaluated whatever `in_valid` and `rst` are (R91, R103). -/
def decisionNow (s : State) : Decision :=
  decideItem s.state s.pins.inIsCmd (classify s.cfg.config s.pins.inIsCmd s.pins.inData)

/-- R160, R161: a cycle with `rst == 1`. -/
def resetCycle (s : State) : State := finishCycle s.pins (decisionNow s) s

/-- R121: a cycle with no item and no reset. -/
def idleCycle (s : State) : State := finishCycle s.pins (decisionNow s) s

/-- R145: what the present cycle is; the item, where there is one, is decoded under the instance's configuration. -/
def fetch (s : State) : CycleKind :=
  if s.pins.rst then .reset
  else if s.pins.inValid then .item (decode s.cfg.config s.pins.item)
  else .idle

/-- Inputs that present the word `w` to a ready consumer (log entry 12). -/
def wordInputs (w : Nat) : Inputs := presentInputs (unpackWord (BitVec.ofNat 9 w)) true

end Sys2Proof.Machine
end

