-- ==== Sys2Proof/Machine/LineState.lean ====
section
/-! DEFINITION. The meanings of the line-state bytes (spec/41_filter_fsm.md R95, R97, R98, R100). The don't-care bits
do not change the decision; an emitted event carries them in its data (R102). -/

namespace Sys2Proof.Machine

/-- R97, class LS_INACTIVE: closes the open packet with an END event. -/
def execLsInactive (top : BitVec 1) (low : BitVec 4) (s : State) : Host.Outcome State Fault Refusal :=
  presentItem (encode s.cfg.config (.lsInactive top low)) (closePacket .endKind s.state) s

/-- R95, class LS_ACTIVE: opens a packet where none is open. -/
def execLsActive (top : BitVec 1) (low : BitVec 4) (s : State) : Host.Outcome State Fault Refusal :=
  presentItem (encode s.cfg.config (.lsActive top low)) (openPacket s.state) s

/-- R100, class LS_RESERVED: dropped in both states. -/
def execLsReserved (top : BitVec 1) (low : BitVec 4) (s : State) : Host.Outcome State Fault Refusal :=
  presentItem (encode s.cfg.config (.lsReserved top low)) (ignoreItem s.state) s

/-- R98, class LS_ERROR: closes the open packet with an ERR event, which is data and no fault (R141). -/
def execLsError (top : BitVec 1) (low : BitVec 4) (s : State) : Host.Outcome State Fault Refusal :=
  presentItem (encode s.cfg.config (.lsError top low)) (closePacket .errKind s.state) s

end Sys2Proof.Machine
end

