-- ==== Sys2Proof/Machine/Markers.lean ====
section
/-! DEFINITION. The meanings of the RxCmd bytes with bit 6 set: the four sentinel markers and the unrecognised bytes
(spec/41_filter_fsm.md R93, R94, R96, R99, R101). -/

namespace Sys2Proof.Machine

/-- R93, class CMD_NOACTION: dropped in both states. -/
def execCmdNoaction (s : State) : Host.Outcome State Fault Refusal :=
  presentItem (encode s.cfg.config .cmdNoaction) (ignoreItem s.state) s

/-- R94, class CMD_START: opens a packet where none is open. -/
def execCmdStart (s : State) : Host.Outcome State Fault Refusal :=
  presentItem (encode s.cfg.config .cmdStart) (openPacket s.state) s

/-- R96, class CMD_END: closes the open packet with an END event. -/
def execCmdEnd (s : State) : Host.Outcome State Fault Refusal :=
  presentItem (encode s.cfg.config .cmdEnd) (closePacket .endKind s.state) s

/-- R99, class CMD_OVF: closes the open packet with an OVF event. -/
def execCmdOvf (s : State) : Host.Outcome State Fault Refusal :=
  presentItem (encode s.cfg.config .cmdOvf) (closePacket .ovfKind s.state) s

/-- R101, class CMD_OTHER: dropped in both states. -/
def execCmdOther (data : Byte) (s : State) : Host.Outcome State Fault Refusal :=
  presentItem (encode s.cfg.config (.cmdOther data)) (ignoreItem s.state) s

end Sys2Proof.Machine
end

