-- ==== Sys2Proof/Machine/Plain.lean ====
section
/-! DEFINITION. The meaning of plain packet data (spec/41_filter_fsm.md R92). -/

namespace Sys2Proof.Machine

/-- R92, class PLAIN: emitted as plain data in both states. -/
def execPlain (data : Byte) (s : State) : Host.Outcome State Fault Refusal :=
  presentItem (encode s.cfg.config (.plain data)) (passPlain s.state) s

end Sys2Proof.Machine
end

