-- ==== Sys2Proof/Machine/Dispatch.lean ====
section
/-! DEFINITION. One arm per item class (spec/30_encoding.md R56). -/

namespace Sys2Proof.Machine

def exec (i : Instr) (s : State) : Host.Outcome State Fault Refusal :=
  match i with
  | .plain data => Sys2Proof.Machine.execPlain data s
  | .cmdNoaction => Sys2Proof.Machine.execCmdNoaction s
  | .cmdStart => Sys2Proof.Machine.execCmdStart s
  | .cmdEnd => Sys2Proof.Machine.execCmdEnd s
  | .cmdOvf => Sys2Proof.Machine.execCmdOvf s
  | .lsInactive top low => Sys2Proof.Machine.execLsInactive top low s
  | .lsActive top low => Sys2Proof.Machine.execLsActive top low s
  | .lsReserved top low => Sys2Proof.Machine.execLsReserved top low s
  | .lsError top low => Sys2Proof.Machine.execLsError top low s
  | .cmdOther data => Sys2Proof.Machine.execCmdOther data s

end Sys2Proof.Machine
end

