-- ==== Sys2Proof/Machine/Step.lean ====
section
/-! DEFINITION. One step: one clock cycle, ended by the active edge (spec/00_scope.md R9, R10). -/

namespace Sys2Proof.Machine

/-- One clock cycle on the present inputs, in the priority order of R145. -/
def step (s : State) : Host.Outcome State Fault Refusal :=
  match fetch s with
  | .reset => .next (resetCycle s)
  | .item i => exec i s
  | .idle => .next (idleCycle s)

/-- `s` with the item `w` presented to a ready consumer in the present cycle (log entry 12). An item has nine bits
whatever `nbits` is. -/
def State.withFetchWord (s : State) (nbits w : Nat) : State := { s with pins := wordInputs (w % 2 ^ nbits) }

end Sys2Proof.Machine
end

