-- ==== Sys2Proof/Machine/Construct.lean ====
section
/-! DEFINITION. Construction of an instance (spec/60_exceptions.md R142): the one action that can be refused. -/

namespace Sys2Proof.Machine

/-- R142: an instance in the reset state, or a refusal that names the failed clauses. -/
def construct (c : Config) : Host.Outcome State Fault Refusal :=
  if h : ConfigOK c then .next (State.initial ⟨c, h⟩) else .refused (.badConfig (failedClauses c))

end Sys2Proof.Machine
end

