-- ==== Sys2Proof/Machine/CycleFunction.lean ====
section
/-! DEFINITION. The whole cycle as the one function of spec/42_handshake_timestamp.md R122, written from its text, and
the transaction-level step of R123. `step` is written from the class rules instead; that the two agree is stated in
Certificates/Slice0/Obligations.lean. -/

namespace Sys2Proof.Machine

/-- What R122's `cycle` returns: the outputs and the next register values. -/
structure CycleResult where
  outputs : Outputs
  state : FilterState
  ctr : Nat
  deriving DecidableEq, Repr

/-- R122: `cycle(state, ctr, rst, in_valid, in_is_cmd, in_data, out_ready)`. -/
def cycleFunction (c : Config) (st : FilterState) (ctr : Nat) (p : Inputs) : CycleResult :=
  let d := decideItem st p.inIsCmd (classify c p.inIsCmd p.inData)
  let emits := match d.action with
    | .emit _ => true
    | .drop => false
  let flags := match d.action with
    | .emit k => kindFlags k
    | .drop => EventFlags.none
  let outValid := !p.rst && p.inValid && emits
  let inReady := !p.rst && p.inValid && (if emits then p.outReady else true)
  let accept := p.inValid && inReady
  { outputs :=
      { inReady := inReady
        outValid := outValid
        outTs := ctr
        outData := p.inData
        outFlags := if outValid then flags else EventFlags.none }
    state := if p.rst then .packetClosed else if accept then d.next else st
    ctr := if p.rst then 0 else if accept then (ctr + 1) % 2 ^ c.tsWidth else ctr }

/-- What R123's `step` returns: the event, if any, and the next register values. -/
structure TransactResult where
  event : Option PacketEvent
  state : FilterState
  ctr : Nat
  deriving DecidableEq, Repr

/-- R123: the step of one accepted item. -/
def transact (c : Config) (st : FilterState) (ctr : Nat) (r : RawSample) : TransactResult :=
  let d := decideItem st r.isCmd (classify c r.isCmd r.data)
  { event := match d.action with
      | .emit k => some { timestamp := ctr, data := r.data, flags := kindFlags k }
      | .drop => none
    state := d.next
    ctr := (ctr + 1) % 2 ^ c.tsWidth }

/-- What a run of accepted items gives: the event stream and the registers. -/
structure StreamResult where
  events : List PacketEvent
  state : FilterState
  ctr : Nat
  deriving DecidableEq, Repr

/-- R123: the accepted items in order; the event stream is the concatenation of the events. -/
def transactAll (c : Config) (st : FilterState) (ctr : Nat) : List RawSample → StreamResult
  | [] => ⟨[], st, ctr⟩
  | r :: rest =>
    let t := transact c st ctr r
    let u := transactAll c t.state t.ctr rest
    ⟨t.event.toList ++ u.events, u.state, u.ctr⟩

end Sys2Proof.Machine
end

