-- ==== Sys2Proof/Machine/Instances.lean ====
section
/-! DEFINITION. Several instances side by side (spec/60_exceptions.md R150). They share no state and no signal; the
bench clocks each one once (log entry 18). -/

namespace Sys2Proof.Machine

/-- One clock cycle of every instance of a bench, stopping at the first that stops. -/
def stepBench : List State → Host.Outcome (List State) Fault Refusal
  | [] => .next []
  | s :: rest =>
    match step s with
    | .next t =>
      match stepBench rest with
      | .next ts => .next (t :: ts)
      | .fault r => .fault r
      | .refused r => .refused r
    | .fault r => .fault r
    | .refused r => .refused r

end Sys2Proof.Machine
end

