-- ==== Sys2Proof/Machine/Record.lean ====
section
/-! DEFINITION. What the record of finished cycles says: the transfers of spec/42_handshake_timestamp.md R113 and R114,
the accepted items and delivered events in order (20_memory.md R46), and the stretch since the last reset
(70_reset_and_hazards.md R160). The record is kept newest first; the lists read from it are oldest first. -/

namespace Sys2Proof.Machine

/-- R113: an item was accepted in this cycle. -/
def PortCycle.accepted (c : PortCycle) : Bool := c.inputs.inValid && c.outputs.inReady

/-- The accepted item of a cycle, if any. -/
def PortCycle.acceptedItem (c : PortCycle) : Option RawSample := if c.accepted then some c.inputs.item else none

/-- R114: the event delivered in this cycle, if any. -/
def PortCycle.deliveredEvent (c : PortCycle) : Option PacketEvent :=
  if c.outputs.outValid && c.inputs.outReady then
    some { timestamp := c.outputs.outTs, data := c.outputs.outData, flags := c.outputs.outFlags }
  else none

/-- The item of a cycle that accepted one and presented no event: a drop. -/
def PortCycle.droppedItem (c : PortCycle) : Option RawSample :=
  if c.accepted && !c.outputs.outValid then some c.inputs.item else none

/-- R119: a cycle that presents an event which the consumer does not take. -/
def PortCycle.stalled (c : PortCycle) : Bool := c.outputs.outValid && !c.inputs.outReady

/-- The cycles after the last one with `rst == 1`, newest first; all of them where there was none (R162). -/
def sinceReset : List PortCycle → List PortCycle
  | [] => []
  | c :: older => if c.inputs.rst then [] else c :: sinceReset older

/-- The accepted items, oldest first. -/
def acceptedItems : List PortCycle → List RawSample
  | [] => []
  | c :: older => acceptedItems older ++ c.acceptedItem.toList

/-- The delivered events, oldest first. -/
def deliveredEvents : List PortCycle → List PacketEvent
  | [] => []
  | c :: older => deliveredEvents older ++ c.deliveredEvent.toList

/-- The dropped items, oldest first. -/
def droppedItems : List PortCycle → List RawSample
  | [] => []
  | c :: older => droppedItems older ++ c.droppedItem.toList

end Sys2Proof.Machine
end

