-- ==== Sys2Proof/Machine/Run.lean ====
section
/-! DEFINITION. A run of several clock cycles (spec/20_memory.md R46), for the statements about runs. -/

namespace Sys2Proof.Machine

/-- `n` clock cycles, stopping at the first that stops. -/
def runCycles : Nat → State → Host.Outcome State Fault Refusal
  | 0, s => .next s
  | n + 1, s =>
    match step s with
    | .next t => runCycles n t
    | .fault r => .fault r
    | .refused r => .refused r

end Sys2Proof.Machine
end

