-- ==== Sys2Proof/Safety.lean ====
section
/-! DEFINITION. The terms the statements use: the state a cycle leaves, the transition table of spec/41_filter_fsm.md
R105, the framing of an event stream (R106), the invariants of every run, and the port duties of
70_reset_and_hazards.md R165. -/

namespace Sys2Proof.Safety

open Machine

/-- The state after one cycle, given the cycle's signals and the new register values: the configuration kept, the next
inputs at the pins, the cycle recorded, and nothing else changed. The pins, the inputs to come and the record are the
model's own fields (log entries 3, 4 and 5). -/
def afterCycle (s : State) (p : Inputs) (o : Outputs) (st : FilterState) (ctr : Nat) : State :=
  { cfg := s.cfg, state := st, ctr := ctr, pins := s.coming.headD Inputs.idle, coming := s.coming.tail,
    history := ⟨p, o⟩ :: s.history }

/-- The outputs of a cycle that presents an event of kind `k` (R110, R112). -/
def eventOutputs (inReady : Bool) (ctr : Nat) (d : Byte) (k : EventKind) : Outputs :=
  { inReady := inReady, outValid := true, outTs := ctr, outData := d, outFlags := kindFlags k }

/-- The outputs of a cycle that presents no event (R112, R120, R121). -/
def quietOutputs (inReady : Bool) (ctr : Nat) (d : Byte) : Outputs :=
  { inReady := inReady, outValid := false, outTs := ctr, outData := d, outFlags := EventFlags.none }

/-- R105: the twenty cells, class by state. -/
def transitionTable : ItemClass → FilterState → Decision
  | .plain, .packetClosed => ⟨.emit .plainKind, .packetClosed⟩
  | .plain, .packetOpen => ⟨.emit .plainKind, .packetOpen⟩
  | .cmdNoaction, .packetClosed => ⟨.drop, .packetClosed⟩
  | .cmdNoaction, .packetOpen => ⟨.drop, .packetOpen⟩
  | .cmdStart, .packetClosed => ⟨.emit .startKind, .packetOpen⟩
  | .cmdStart, .packetOpen => ⟨.drop, .packetOpen⟩
  | .lsActive, .packetClosed => ⟨.emit .startKind, .packetOpen⟩
  | .lsActive, .packetOpen => ⟨.drop, .packetOpen⟩
  | .cmdEnd, .packetClosed => ⟨.drop, .packetClosed⟩
  | .cmdEnd, .packetOpen => ⟨.emit .endKind, .packetClosed⟩
  | .lsInactive, .packetClosed => ⟨.drop, .packetClosed⟩
  | .lsInactive, .packetOpen => ⟨.emit .endKind, .packetClosed⟩
  | .lsError, .packetClosed => ⟨.drop, .packetClosed⟩
  | .lsError, .packetOpen => ⟨.emit .errKind, .packetClosed⟩
  | .cmdOvf, .packetClosed => ⟨.drop, .packetClosed⟩
  | .cmdOvf, .packetOpen => ⟨.emit .ovfKind, .packetClosed⟩
  | .lsReserved, .packetClosed => ⟨.drop, .packetClosed⟩
  | .lsReserved, .packetOpen => ⟨.drop, .packetOpen⟩
  | .cmdOther, .packetClosed => ⟨.drop, .packetClosed⟩
  | .cmdOther, .packetOpen => ⟨.drop, .packetOpen⟩

/-- R106: read an event stream from a framing state; a START may come only when closed, a terminal event only when
open, plain data in both. The answer is the framing state at its end, or none where the order is broken. -/
def framing (st : FilterState) : List PacketEvent → Option FilterState
  | [] => some st
  | e :: rest =>
    if e.flags.isStart then
      (match st with
        | .packetClosed => framing .packetOpen rest
        | .packetOpen => none)
    else if e.flags.terminal then
      (match st with
        | .packetClosed => none
        | .packetOpen => framing .packetClosed rest)
    else framing st rest

/-- One step of `s` ends in `t`, and `cyc` is the cycle it recorded, on the inputs at the pins (the record is the
model's own field: log entry 5). -/
def CycleTaken (s : State) (cyc : PortCycle) (t : State) : Prop :=
  step s = .next t ∧ t.history = cyc :: s.history ∧ cyc.inputs = s.pins

/-- `s` with the given input signals for the present and the later cycles, nothing else changed. -/
def withInputs (s : State) (ps : List Inputs) : State :=
  { s with pins := ps.headD Inputs.idle, coming := ps.tail }

/-- R8, R22: the counter is an N-bit value. -/
def CtrInRange (s : State) : Prop := s.ctr < 2 ^ s.cfg.config.tsWidth

/-- The registers, and the events delivered since the last reset, are those that R123's step gives for the items
accepted since then, from the reset values. -/
def ReplaysAcceptedItems (s : State) : Prop :=
  transactAll s.cfg.config .packetClosed 0 (acceptedItems (sinceReset s.history)) =
    ⟨deliveredEvents (sinceReset s.history), s.state, s.ctr⟩

/-- R106: since the last reset, boundary events alternate, START first, and the FSM state is open exactly after a
START. -/
def FramedSinceReset (s : State) : Prop :=
  framing .packetClosed (deliveredEvents (sinceReset s.history)) = some s.state

/-- R124, counted since the last reset: accepted = delivered + dropped, and the counter is the accepted count modulo
2^N. -/
def AccountedSinceReset (s : State) : Prop :=
  (acceptedItems (sinceReset s.history)).length =
      (deliveredEvents (sinceReset s.history)).length + (droppedItems (sinceReset s.history)).length ∧
    s.ctr = (acceptedItems (sinceReset s.history)).length % 2 ^ s.cfg.config.tsWidth

/-- R165, the producer's duty between one cycle and the next one outside reset: an item that was presented and not
accepted stays presented, unchanged (log entry 17). -/
def producerHolds (earlier : PortCycle) (later : Inputs) : Bool :=
  !(earlier.inputs.inValid && !earlier.outputs.inReady && !earlier.inputs.rst && !later.rst) ||
    (later.inValid && later.item == earlier.inputs.item)

/-- R165, R167: the producer has kept its duty throughout a record (newest cycle first). -/
def producerKeptDuty : List PortCycle → Bool
  | [] => true
  | later :: older =>
    (match older with
      | [] => true
      | earlier :: _ => producerHolds earlier later.inputs) && producerKeptDuty older

end Sys2Proof.Safety
end

