-- ==== Sys2Proof/Certificates/Slice0/Obligations.lean ====
section
/-! DEFINITION. The statements for the provers. Each docstring names the rule of spec/ it formalises. A statement over
`AdmittedConfig` or `State` holds for every configuration that R26 admits. -/

open Sys2Proof Sys2Proof.Machine Sys2Proof.Safety

/-! ## The classifier (spec/40_classifier.md) -/

/-- R70: the flag set, each line with the bit arithmetic of R7. -/
def Obligations.ClassifierFlagsAreTheirFormulas : Prop :=
  ∀ (c : Config) (cmd : Bool) (d : Byte),
    classify c cmd d =
      { isStartMarker := cmd && decide (d = c.startByte)
        isEndMarker := cmd && decide (d = c.endByte)
        isOvfMarker := cmd && decide (d = c.overflowByte)
        isNoactionMarker := cmd && decide (d = c.noactionByte)
        isActive := cmd && decide (d.toNat / 64 % 2 = 0) && decide (d.toNat / 16 % 4 = 1)
        isInactive := cmd && decide (d.toNat / 64 % 2 = 0) && decide (d.toNat / 16 % 4 = 0)
        isError := cmd && decide (d.toNat / 64 % 2 = 0) && decide (d.toNat / 16 % 4 = 3) }

/-- R71: plain data sets no flag, whatever its value. -/
def Obligations.PlainDataSetsNoFlag : Prop :=
  ∀ (c : Config) (d : Byte), classify c false d = ClassifierFlags.none

/-- R72 to R75: each marker flag is an exact comparison of an RxCmd byte, and under `ConfigOK` no other flag is set with
it; with the examples of the rules under REF. -/
def Obligations.MarkerFlagsAreExactComparisons : Prop :=
  (∀ (c : AdmittedConfig) (cmd : Bool) (d : Byte),
    ((classify c.config cmd d).isStartMarker = true ↔ cmd = true ∧ d = c.config.startByte) ∧
    ((classify c.config cmd d).isEndMarker = true ↔ cmd = true ∧ d = c.config.endByte) ∧
    ((classify c.config cmd d).isOvfMarker = true ↔ cmd = true ∧ d = c.config.overflowByte) ∧
    ((classify c.config cmd d).isNoactionMarker = true ↔ cmd = true ∧ d = c.config.noactionByte)) ∧
  (∀ c : AdmittedConfig,
    classify c.config true c.config.startByte = { ClassifierFlags.none with isStartMarker := true } ∧
    classify c.config true c.config.endByte = { ClassifierFlags.none with isEndMarker := true } ∧
    classify c.config true c.config.overflowByte = { ClassifierFlags.none with isOvfMarker := true } ∧
    classify c.config true c.config.noactionByte = { ClassifierFlags.none with isNoactionMarker := true }) ∧
  (classify Config.ref true 0xF0).isStartMarker = true ∧ (classify Config.ref true 0xF8).isStartMarker = false ∧
  (classify Config.ref true 0xF1).isEndMarker = true ∧ (classify Config.ref false 0xF1).isEndMarker = false ∧
  (classify Config.ref true 0xF2).isOvfMarker = true ∧ (classify Config.ref true 0xF3).isNoactionMarker = true

/-- R76 to R78: each line-state flag reads bits 6, 5 and 4 of an RxCmd byte and ignores the others. -/
def Obligations.LineStateFlagsReadThreeBits : Prop :=
  ∀ (c : Config) (cmd : Bool) (d : Byte),
    ((classify c cmd d).isActive = true ↔ cmd = true ∧ d.getLsbD 6 = false ∧ d.toNat / 16 % 4 = 1) ∧
    ((classify c cmd d).isInactive = true ↔ cmd = true ∧ d.getLsbD 6 = false ∧ d.toNat / 16 % 4 = 0) ∧
    ((classify c cmd d).isError = true ↔ cmd = true ∧ d.getLsbD 6 = false ∧ d.toNat / 16 % 4 = 3) ∧
    (∀ (top : BitVec 1) (low : BitVec 4),
      (classify c true (top ++ 0b001#3 ++ low)).isActive = true ∧
      (classify c true (top ++ 0b000#3 ++ low)).isInactive = true ∧
      (classify c true (top ++ 0b011#3 ++ low)).isError = true)

/-- R79: a line-state byte of code 2, and a byte with bit 6 set that is no sentinel, set no flag. -/
def Obligations.ReservedAndUnknownBytesSetNoFlag : Prop :=
  (∀ (c : AdmittedConfig) (top : BitVec 1) (low : BitVec 4),
    classify c.config true (top ++ 0b010#3 ++ low) = ClassifierFlags.none) ∧
  (∀ (c : AdmittedConfig) (d : Byte), d.getLsbD 6 = true → (∀ k, d ≠ c.config.sentinelByte k) →
    classify c.config true d = ClassifierFlags.none)

/-- R81, R82 (the spec's derivation): the flag set of an item is the one of its class. -/
def Obligations.FlagSetIsTheOneOfTheClass : Prop :=
  ∀ (c : AdmittedConfig) (r : RawSample),
    classify c.config r.isCmd r.data =
      match classOf c.config r with
      | .plain => ClassifierFlags.none
      | .cmdNoaction => { ClassifierFlags.none with isNoactionMarker := true }
      | .cmdStart => { ClassifierFlags.none with isStartMarker := true }
      | .cmdEnd => { ClassifierFlags.none with isEndMarker := true }
      | .cmdOvf => { ClassifierFlags.none with isOvfMarker := true }
      | .lsInactive => { ClassifierFlags.none with isInactive := true }
      | .lsActive => { ClassifierFlags.none with isActive := true }
      | .lsReserved => ClassifierFlags.none
      | .lsError => { ClassifierFlags.none with isError := true }
      | .cmdOther => ClassifierFlags.none

/-! ## Encoding (spec/30_encoding.md) -/

/-- R56, R57 (the spec's derivation): the first matching row gives the class of R82, and two different rows match one
word only where the one is a sentinel row and the other CMD_OTHER. -/
def Obligations.ClassRowsAreDisjointAndTotal : Prop :=
  ∀ (c : AdmittedConfig) (w : ItemWord),
    firstMatch c.config w = some (classOf c.config (unpackWord w)) ∧
    ∀ a ∈ classRows c.config, ∀ b ∈ classRows c.config,
      a.matchesWord w = true → b.matchesWord w = true → a.itemClass ≠ b.itemClass →
        (a.itemClass = .cmdOther ∧ b.itemClass ∈ [.cmdNoaction, .cmdStart, .cmdEnd, .cmdOvf]) ∨
        (b.itemClass = .cmdOther ∧ a.itemClass ∈ [.cmdNoaction, .cmdStart, .cmdEnd, .cmdOvf])

/-- R56 (the spec's derivation): how many of the 512 words each class has, for every admitted configuration. -/
def Obligations.ClassWordCounts : Prop :=
  ∀ (c : AdmittedConfig) (k : ItemClass),
    (List.range 512).countP (fun n => classOf c.config (unpackWord (BitVec.ofNat 9 n)) == k) =
      match k with
      | .plain => 256
      | .cmdNoaction => 1
      | .cmdStart => 1
      | .cmdEnd => 1
      | .cmdOvf => 1
      | .lsInactive => 32
      | .lsActive => 32
      | .lsReserved => 32
      | .lsError => 32
      | .cmdOther => 124

/-- R51, R55, R56: decoding the encoding of a well-formed instruction gives it back, as an item and as a word. -/
def Obligations.DecodeOfEncodeIsTheInstruction : Prop :=
  ∀ (c : AdmittedConfig) (i : Instr), wellFormed c.config i = true →
    decode c.config (encode c.config i) = i ∧ decodeWord c.config (encodeWord c.config i).toNat = .ok i

/-- R58, R80: every 9-bit word decodes, to a well-formed instruction whose encoding is that word. -/
def Obligations.EveryWordIsAnEncoding : Prop :=
  ∀ (c : AdmittedConfig) (w : ItemWord), ∃ i, decodeWord c.config w.toNat = .ok i ∧
    wellFormed c.config i = true ∧ encodeWord c.config i = w

/-- R56: words written out from the rows of the class map, one for each class, decode to their instructions under
REF. -/
def Obligations.WrittenOutWordsDecode : Prop :=
  decodeWord Config.ref 0b001010101 = .ok (.plain 0x55) ∧
  decodeWord Config.ref 0b111110011 = .ok .cmdNoaction ∧
  decodeWord Config.ref 0b111110000 = .ok .cmdStart ∧
  decodeWord Config.ref 0b111110001 = .ok .cmdEnd ∧
  decodeWord Config.ref 0b111110010 = .ok .cmdOvf ∧
  decodeWord Config.ref 0b110001111 = .ok (.lsInactive 1 0xF) ∧
  decodeWord Config.ref 0b110011111 = .ok (.lsActive 1 0xF) ∧
  decodeWord Config.ref 0b110100101 = .ok (.lsReserved 1 0x5) ∧
  decodeWord Config.ref 0b100111111 = .ok (.lsError 0 0xF) ∧
  decodeWord Config.ref 0b111111000 = .ok (.cmdOther 0xF8)

/-- R51, R60 (the spec's notation): the number each packed word and each line form stands for. -/
def Obligations.PackedWordsAndItemNotation : Prop :=
  (∀ r : RawSample, (packSample r).toNat = (if r.isCmd then 256 else 0) + r.data.toNat ∧
    unpackWord (packSample r) = r) ∧
  ∀ (c : Config) (d : Byte) (k : Sentinel) (code : BitVec 2),
    ((ItemForm.d d).word c).toNat = d.toNat ∧
    ((ItemForm.c d).word c).toNat = 256 + d.toNat ∧
    ((ItemForm.cSentinel k).word c).toNat = 256 + (c.sentinelByte k).toNat ∧
    ((ItemForm.cLineState code).word c).toNat = 256 + 16 * code.toNat

/-- R53, R54 (the spec's notation): the fields of a packed event word, and the five flag nibbles. -/
def Obligations.PackedEventFieldsReadBack : Prop :=
  (∀ (n : Nat) (e : PacketEvent), e.timestamp < 2 ^ n →
    ((packEvent n e).extractLsb' 12 n).toNat = e.timestamp ∧
    (packEvent n e).extractLsb' 4 8 = e.data ∧
    (packEvent n e).extractLsb' 0 4 = flagsNibble e.flags) ∧
  flagsNibble (kindFlags .plainKind) = 0x0 ∧ flagsNibble (kindFlags .startKind) = 0x8 ∧
  flagsNibble (kindFlags .endKind) = 0x4 ∧ flagsNibble (kindFlags .errKind) = 0x2 ∧
  flagsNibble (kindFlags .ovfKind) = 0x1

/-! ## Configuration, construction and reset (spec/10_state.md, spec/60_exceptions.md, spec/70_reset_and_hazards.md) -/

/-- R26 (clauses of 92_eei_decisions.md D7): the check holds exactly when N is positive, every sentinel has bit 6 set
and the four differ, and exactly when no clause is reported. -/
def Obligations.ConfigCheckIsItsClauses : Prop :=
  ∀ c : Config,
    (ConfigOK c ↔ 1 ≤ c.tsWidth ∧ (∀ k, (c.sentinelByte k).toNat / 64 % 2 = 1) ∧
      ∀ k l, c.sentinelByte k = c.sentinelByte l → k = l) ∧
    (ConfigOK c ↔ failedClauses c = [])

/-- R142 (decision D7): an admitted configuration gives an instance in the reset state; any other is refused with the
clauses that fail, of which there is at least one (log entry 16: all of them). -/
def Obligations.ConstructionAdmitsOrRefuses : Prop :=
  (∀ c : AdmittedConfig, construct c.config = .next (State.initial c)) ∧
  ∀ c : Config, ¬ ConfigOK c →
    construct c = .refused (.badConfig (failedClauses c)) ∧ (∃ cl, cl ∈ failedClauses c) ∧
    ∀ cl ∈ failedClauses c, clauseFails c cl = true

/-- R30: a new instance of any configuration is closed with counter 0, and so is the host's reset state, whose
configuration REF is the model's choice (log entry 1). -/
def Obligations.InitialRegisters : Prop :=
  (∀ c : AdmittedConfig, (State.initial c).state = .packetClosed ∧ (State.initial c).ctr = 0 ∧
    (State.initial c).cfg = c) ∧
  State.reset.state = .packetClosed ∧ State.reset.ctr = 0 ∧ State.reset.cfg.config = Config.ref

/-- R160, R161 (decision D4): a reset cycle, whatever the other inputs are: nothing accepted or presented, the
registers at their reset values, the configuration kept. -/
def Obligations.ResetCycleResetsTheRegisters : Prop :=
  ∀ s : State, s.pins.rst = true →
    step s = .next (afterCycle s s.pins (quietOutputs false s.ctr s.pins.inData) .packetClosed 0)

/-- R163 (the spec's derivation): an item still presented after a reset cycle is decided again from the closed state
and counter 0, as R123 gives. -/
def Obligations.ItemAfterResetStartsAfresh : Prop :=
  ∀ (s : State) (r : RawSample) (later : List Inputs), s.pins.rst = true →
    s.coming = presentInputs r true :: later →
    ∃ t u cyc, step s = .next t ∧ CycleTaken t cyc u ∧
      u.state = (transact s.cfg.config .packetClosed 0 r).state ∧ u.ctr = 1 % 2 ^ s.cfg.config.tsWidth ∧
      cyc.deliveredEvent = (transact s.cfg.config .packetClosed 0 r).event ∧
      ∀ e, cyc.deliveredEvent = some e → e.timestamp = 0

/-! ## The ten item classes (spec/41_filter_fsm.md). Each says where the instruction completes and, through
`afterCycle`, that nothing else changes; what `afterCycle` says of the pins and of the record is the model's choice (log
entries 3, 4 and 5). -/

/-- R92: with the consumer ready, plain data is emitted in both states, flags all 0; the FSM state is kept and the counter
advances by one modulo 2^N, as for every accepted item. -/
def Obligations.PlainIsForwarded : Prop :=
  ∀ (s : State) (d : Byte), s.pins.outReady = true →
    exec (.plain d) s = .next (afterCycle s (presentInputs ⟨false, d⟩ true)
      (eventOutputs true s.ctr d .plainKind) s.state ((s.ctr + 1) % 2 ^ s.cfg.config.tsWidth))

/-- R93: NOACTION is accepted and dropped in both states, whatever the consumer does. -/
def Obligations.NoactionIsDropped : Prop :=
  ∀ s : State,
    exec .cmdNoaction s = .next (afterCycle s (presentInputs ⟨true, s.cfg.config.noactionByte⟩ s.pins.outReady)
      (quietOutputs true s.ctr s.cfg.config.noactionByte) s.state ((s.ctr + 1) % 2 ^ s.cfg.config.tsWidth))

/-- R94 (the event's data by decision D12): START opens a packet when closed, and is dropped when open. -/
def Obligations.StartMarkerOpensPacket : Prop :=
  ∀ s : State,
    (s.state = .packetClosed → s.pins.outReady = true →
      exec .cmdStart s = .next (afterCycle s (presentInputs ⟨true, s.cfg.config.startByte⟩ true)
        (eventOutputs true s.ctr s.cfg.config.startByte .startKind) .packetOpen
        ((s.ctr + 1) % 2 ^ s.cfg.config.tsWidth))) ∧
    (s.state = .packetOpen →
      exec .cmdStart s = .next (afterCycle s (presentInputs ⟨true, s.cfg.config.startByte⟩ s.pins.outReady)
        (quietOutputs true s.ctr s.cfg.config.startByte) .packetOpen ((s.ctr + 1) % 2 ^ s.cfg.config.tsWidth)))

/-- R95: a line-state byte of code 1 opens a packet when closed, with the byte as the event's data, and is dropped when
open. -/
def Obligations.ActiveLineStateOpensPacket : Prop :=
  ∀ (s : State) (top : BitVec 1) (low : BitVec 4),
    (s.state = .packetClosed → s.pins.outReady = true →
      exec (.lsActive top low) s = .next (afterCycle s (presentInputs ⟨true, top ++ 0b001#3 ++ low⟩ true)
        (eventOutputs true s.ctr (top ++ 0b001#3 ++ low) .startKind) .packetOpen
        ((s.ctr + 1) % 2 ^ s.cfg.config.tsWidth))) ∧
    (s.state = .packetOpen →
      exec (.lsActive top low) s = .next (afterCycle s (presentInputs ⟨true, top ++ 0b001#3 ++ low⟩ s.pins.outReady)
        (quietOutputs true s.ctr (top ++ 0b001#3 ++ low)) .packetOpen ((s.ctr + 1) % 2 ^ s.cfg.config.tsWidth)))

/-- R96 (the event's data by decision D12): END closes the open packet, and is dropped when closed. -/
def Obligations.EndMarkerClosesPacket : Prop :=
  ∀ s : State,
    (s.state = .packetOpen → s.pins.outReady = true →
      exec .cmdEnd s = .next (afterCycle s (presentInputs ⟨true, s.cfg.config.endByte⟩ true)
        (eventOutputs true s.ctr s.cfg.config.endByte .endKind) .packetClosed
        ((s.ctr + 1) % 2 ^ s.cfg.config.tsWidth))) ∧
    (s.state = .packetClosed →
      exec .cmdEnd s = .next (afterCycle s (presentInputs ⟨true, s.cfg.config.endByte⟩ s.pins.outReady)
        (quietOutputs true s.ctr s.cfg.config.endByte) .packetClosed ((s.ctr + 1) % 2 ^ s.cfg.config.tsWidth)))

/-- R97: a line-state byte of code 0 closes the open packet with an END event, and is dropped when closed. -/
def Obligations.InactiveLineStateClosesPacket : Prop :=
  ∀ (s : State) (top : BitVec 1) (low : BitVec 4),
    (s.state = .packetOpen → s.pins.outReady = true →
      exec (.lsInactive top low) s = .next (afterCycle s (presentInputs ⟨true, top ++ 0b000#3 ++ low⟩ true)
        (eventOutputs true s.ctr (top ++ 0b000#3 ++ low) .endKind) .packetClosed
        ((s.ctr + 1) % 2 ^ s.cfg.config.tsWidth))) ∧
    (s.state = .packetClosed →
      exec (.lsInactive top low) s = .next (afterCycle s
        (presentInputs ⟨true, top ++ 0b000#3 ++ low⟩ s.pins.outReady)
        (quietOutputs true s.ctr (top ++ 0b000#3 ++ low)) .packetClosed ((s.ctr + 1) % 2 ^ s.cfg.config.tsWidth)))

/-- R98 (the event's data by decision D12): a line-state byte of code 3 closes the open packet with an ERR event, and is
dropped when closed. -/
def Obligations.ErrorLineStateClosesPacket : Prop :=
  ∀ (s : State) (top : BitVec 1) (low : BitVec 4),
    (s.state = .packetOpen → s.pins.outReady = true →
      exec (.lsError top low) s = .next (afterCycle s (presentInputs ⟨true, top ++ 0b011#3 ++ low⟩ true)
        (eventOutputs true s.ctr (top ++ 0b011#3 ++ low) .errKind) .packetClosed
        ((s.ctr + 1) % 2 ^ s.cfg.config.tsWidth))) ∧
    (s.state = .packetClosed →
      exec (.lsError top low) s = .next (afterCycle s (presentInputs ⟨true, top ++ 0b011#3 ++ low⟩ s.pins.outReady)
        (quietOutputs true s.ctr (top ++ 0b011#3 ++ low)) .packetClosed ((s.ctr + 1) % 2 ^ s.cfg.config.tsWidth)))

/-- R99 (the event's data by decision D12): OVERFLOW closes the open packet with an OVF event, and is dropped when
closed. -/
def Obligations.OverflowMarkerClosesPacket : Prop :=
  ∀ s : State,
    (s.state = .packetOpen → s.pins.outReady = true →
      exec .cmdOvf s = .next (afterCycle s (presentInputs ⟨true, s.cfg.config.overflowByte⟩ true)
        (eventOutputs true s.ctr s.cfg.config.overflowByte .ovfKind) .packetClosed
        ((s.ctr + 1) % 2 ^ s.cfg.config.tsWidth))) ∧
    (s.state = .packetClosed →
      exec .cmdOvf s = .next (afterCycle s (presentInputs ⟨true, s.cfg.config.overflowByte⟩ s.pins.outReady)
        (quietOutputs true s.ctr s.cfg.config.overflowByte) .packetClosed
        ((s.ctr + 1) % 2 ^ s.cfg.config.tsWidth)))

/-- R100: a line-state byte of code 2 is accepted and dropped in both states. -/
def Obligations.ReservedLineStateIsDropped : Prop :=
  ∀ (s : State) (top : BitVec 1) (low : BitVec 4),
    exec (.lsReserved top low) s = .next (afterCycle s
      (presentInputs ⟨true, top ++ 0b010#3 ++ low⟩ s.pins.outReady)
      (quietOutputs true s.ctr (top ++ 0b010#3 ++ low)) s.state ((s.ctr + 1) % 2 ^ s.cfg.config.tsWidth))

/-- R101: an unrecognised RxCmd byte is accepted and dropped in both states. -/
def Obligations.UnknownCommandIsDropped : Prop :=
  ∀ (s : State) (d : Byte), wellFormed s.cfg.config (.cmdOther d) = true →
    exec (.cmdOther d) s = .next (afterCycle s (presentInputs ⟨true, d⟩ s.pins.outReady)
      (quietOutputs true s.ctr d) s.state ((s.ctr + 1) % 2 ^ s.cfg.config.tsWidth))

/-- R91: the decision function, guard by guard, and that under `ConfigOK` no two of its flags are set at once. -/
def Obligations.DecisionFunctionGuards : Prop :=
  (∀ (st : FilterState) (f : ClassifierFlags), decideItem st false f = ⟨.emit .plainKind, st⟩) ∧
  (∀ (st : FilterState) (f : ClassifierFlags), f.isNoactionMarker = true → decideItem st true f = ⟨.drop, st⟩) ∧
  (∀ f : ClassifierFlags, f.isNoactionMarker = false →
    decideItem .packetClosed true f =
      if f.isStartMarker = true ∨ f.isActive = true then ⟨.emit .startKind, .packetOpen⟩
      else ⟨.drop, .packetClosed⟩) ∧
  (∀ f : ClassifierFlags, f.isNoactionMarker = false →
    decideItem .packetOpen true f =
      if f.isEndMarker = true ∨ f.isInactive = true then ⟨.emit .endKind, .packetClosed⟩
      else if f.isError = true then ⟨.emit .errKind, .packetClosed⟩
      else if f.isOvfMarker = true then ⟨.emit .ovfKind, .packetClosed⟩
      else ⟨.drop, .packetOpen⟩) ∧
  ∀ (c : AdmittedConfig) (cmd : Bool) (d : Byte), (classify c.config cmd d).toList.count true ≤ 1

/-- R105 (the spec's derivation): the decision function on the classifier flags gives the table's cell of the item's
class, and so does the meaning of every well-formed instruction. -/
def Obligations.DecisionIsTheTransitionTable : Prop :=
  (∀ (c : AdmittedConfig) (r : RawSample) (st : FilterState),
    decideItem st r.isCmd (classify c.config r.isCmd r.data) = transitionTable (classOf c.config r) st) ∧
  ∀ (i : Instr) (s : State), wellFormed s.cfg.config i = true →
    exec i s = .next (finishCycle (presentInputs (encode s.cfg.config i) s.pins.outReady)
      (decideItem s.state (encode s.cfg.config i).isCmd
        (classify s.cfg.config (encode s.cfg.config i).isCmd (encode s.cfg.config i).data)) s)

/-- R119 (the spec's derivation): every instruction whose decision is to emit stalls while the consumer is not ready:
the event is presented, nothing is accepted, the registers keep their values. -/
def Obligations.EmitStallsUntilConsumerReady : Prop :=
  ∀ (i : Instr) (s : State) (k : EventKind), s.pins.outReady = false →
    (transitionTable i.itemClass s.state).action = .emit k →
    exec i s = .next (afterCycle s (presentInputs (encode s.cfg.config i) false)
      (eventOutputs false s.ctr (encode s.cfg.config i).data k) s.state s.ctr)

/-- R120 (the spec's derivation): every instruction whose decision is to drop is accepted, whatever `out_ready` is. It
ranges over ill-formed CMD_OTHER terms too (a sentinel byte, or a byte with bit 6 clear): that such a term is dropped is
the model's choice (log entry 14), not R120's; no item decodes to one. -/
def Obligations.DropIgnoresConsumer : Prop :=
  ∀ (i : Instr) (s : State), (transitionTable i.itemClass s.state).action = .drop →
    exec i s = .next (afterCycle s (presentInputs (encode s.cfg.config i) s.pins.outReady)
      (quietOutputs true s.ctr (encode s.cfg.config i).data) s.state ((s.ctr + 1) % 2 ^ s.cfg.config.tsWidth))

/-! ## The cycle (spec/42_handshake_timestamp.md) -/

/-- R121 (the spec's derivation): an idle cycle changes no register. -/
def Obligations.IdleCycleKeepsTheRegisters : Prop :=
  ∀ s : State, s.pins.rst = false → s.pins.inValid = false →
    step s = .next (afterCycle s s.pins (quietOutputs false s.ctr s.pins.inData) s.state s.ctr)

/-- R145: outside reset, a cycle with an item runs the decoded instruction, which is well-formed and encodes to that
item; and a presented encoding runs its instruction. -/
def Obligations.StepRunsTheDecodedItem : Prop :=
  (∀ s : State, s.pins.rst = false → s.pins.inValid = true →
    step s = exec (decode s.cfg.config s.pins.item) s ∧
    wellFormed s.cfg.config (decode s.cfg.config s.pins.item) = true ∧
    encode s.cfg.config (decode s.cfg.config s.pins.item) = s.pins.item) ∧
  ∀ (s : State) (i : Instr) (ready : Bool), wellFormed s.cfg.config i = true →
    s.pins = presentInputs (encode s.cfg.config i) ready → step s = exec i s

/-- R122 (the spec's derivation): every step is the cycle function, outputs and next registers alike, for every
configuration, state and input. -/
def Obligations.StepIsTheCycleFunction : Prop :=
  ∀ s : State,
    step s = .next (afterCycle s s.pins
      (cycleFunction s.cfg.config s.state s.ctr s.pins).outputs
      (cycleFunction s.cfg.config s.state s.ctr s.pins).state
      (cycleFunction s.cfg.config s.state s.ctr s.pins).ctr)

/-- R140: no cycle of an admitted instance faults, traps or refuses, and no instruction does. -/
def Obligations.NoCycleFaults : Prop :=
  (∀ s : State, ∃ t, step s = .next t) ∧ ∀ (i : Instr) (s : State), ∃ t, exec i s = .next t

/-- What every cycle leaves: the configuration unchanged (R25, R49; decision D18). The other clauses are the
model's choices and no rule of the spec: the record keeps the earlier cycles and gains this one (log entry 5), the next
listed inputs come to the pins (log entry 3), and the pins are idle once the listed inputs run out (log entry 4). -/
def Obligations.CycleFrame : Prop :=
  ∀ s : State, ∃ t cyc, CycleTaken s cyc t ∧ t.cfg = s.cfg ∧
    t.pins = s.coming.headD Inputs.idle ∧ t.coming = s.coming.tail

/-- R59: what the present cycle is, and the instruction it presents, depend on the configuration and the input signals
only, never on the registers. -/
def Obligations.ClassificationIgnoresTheRegisters : Prop :=
  ∀ s s' : State, s.cfg = s'.cfg → s.pins = s'.pins → fetch s = fetch s'

/-- R115: the counter after every cycle. -/
def Obligations.CounterUpdateRule : Prop :=
  ∀ s : State, ∃ t cyc, CycleTaken s cyc t ∧
    t.ctr = if s.pins.rst then 0
      else if cyc.inputs.inValid && cyc.outputs.inReady then (s.ctr + 1) % 2 ^ s.cfg.config.tsWidth
      else s.ctr

/-- R116: the FSM state after every cycle; and a cycle outside reset that delivers no event (a drop, a stall, an idle
cycle) never changes it (the spec's derivation). -/
def Obligations.StateUpdateRule : Prop :=
  ∀ s : State, ∃ t cyc, CycleTaken s cyc t ∧
    (t.state = if s.pins.rst then .packetClosed
      else if cyc.inputs.inValid && cyc.outputs.inReady then
        (decideItem s.state s.pins.inIsCmd (classify s.cfg.config s.pins.inIsCmd s.pins.inData)).next
      else s.state) ∧
    (s.pins.rst = false → cyc.deliveredEvent = none → t.state = s.state)

/-- R113, R114 (the spec's derivation): an event is delivered exactly when an item is accepted whose decision is to
emit, and nothing is accepted in a reset cycle. -/
def Obligations.DeliveryIsAcceptanceOfAnEmit : Prop :=
  ∀ s : State, ∃ t cyc, CycleTaken s cyc t ∧
    (cyc.deliveredEvent.isSome = true ↔ cyc.accepted = true ∧
      ∃ k, (decideItem s.state s.pins.inIsCmd (classify s.cfg.config s.pins.inIsCmd s.pins.inData)).action =
        .emit k) ∧
    (cyc.accepted = true → s.pins.rst = false)

/-- R117: an event's timestamp is the counter before the edge that advances it; with the rule's example. -/
def Obligations.TimestampIsSampledBeforeIncrement : Prop :=
  (∀ s : State, ∃ t cyc, CycleTaken s cyc t ∧
    ∀ e, cyc.deliveredEvent = some e → e.timestamp = s.ctr ∧ t.ctr = (s.ctr + 1) % 2 ^ s.cfg.config.tsWidth) ∧
  ∀ s : State, s.ctr = 0 → s.pins = presentInputs ⟨false, 0x55⟩ true →
    ∃ t cyc, CycleTaken s cyc t ∧ cyc.deliveredEvent = some ⟨0, 0x55, EventFlags.none⟩ ∧ t.ctr = 1

/-- R118: at `2^N - 1` an accepted item takes the counter to 0; its event, if any, has timestamp `2^N - 1`. -/
def Obligations.CounterWrapsSilently : Prop :=
  ∀ s : State, s.ctr = 2 ^ s.cfg.config.tsWidth - 1 → s.pins.rst = false → s.pins.inValid = true →
    s.pins.outReady = true →
    ∃ t cyc, CycleTaken s cyc t ∧ t.ctr = 0 ∧ cyc.accepted = true ∧
      ∀ e, cyc.deliveredEvent = some e → e.timestamp = 2 ^ s.cfg.config.tsWidth - 1

/-- R52, R54: every delivered event is of one of the five kinds, so at most one of its flags is true. -/
def Obligations.DeliveredEventsHaveOneOfFiveKinds : Prop :=
  ∀ s : State, ∃ t cyc, CycleTaken s cyc t ∧
    ∀ e, cyc.deliveredEvent = some e →
      (∃ k, e.flags = kindFlags k) ∧ e.data = s.pins.inData ∧
      ([e.flags.isStart, e.flags.isEnd, e.flags.isErr, e.flags.isOvf].filter id).length ≤ 1

/-- R123 (the spec's derivation): a cycle that offers an item to a ready consumer is one application of the transaction
step. -/
def Obligations.ReadyCycleIsOneTransaction : Prop :=
  ∀ s : State, s.pins.rst = false → s.pins.inValid = true → s.pins.outReady = true →
    ∃ t cyc, CycleTaken s cyc t ∧ cyc.acceptedItem = some s.pins.item ∧
      cyc.deliveredEvent = (transact s.cfg.config s.state s.ctr s.pins.item).event ∧
      t.state = (transact s.cfg.config s.state s.ctr s.pins.item).state ∧
      t.ctr = (transact s.cfg.config s.state s.ctr s.pins.item).ctr

/-- R125 (the spec's derivation): which inputs and registers each output depends on; two cycles that agree on these
show the same output. `out_valid` does not depend on `out_ready`, `out_ts` only on `ctr`, `out_data` only on
`in_data`. -/
def Obligations.OutputsDependOnlyOnTheirInputs : Prop :=
  ∀ s s' : State, s.cfg = s'.cfg → ∃ t cyc t' cyc', CycleTaken s cyc t ∧ CycleTaken s' cyc' t' ∧
    (s.pins.inData = s'.pins.inData → cyc.outputs.outData = cyc'.outputs.outData) ∧
    (s.ctr = s'.ctr → cyc.outputs.outTs = cyc'.outputs.outTs) ∧
    (s.state = s'.state → s.pins.rst = s'.pins.rst → s.pins.inValid = s'.pins.inValid →
      s.pins.item = s'.pins.item →
      cyc.outputs.outValid = cyc'.outputs.outValid ∧ cyc.outputs.outFlags = cyc'.outputs.outFlags ∧
      (s.pins.outReady = s'.pins.outReady → cyc.outputs.inReady = cyc'.outputs.inReady))

/-- R119, R167 (the spec's derivations): after a stalled cycle, a producer that keeps its duty outside reset keeps the
same event presented, and the registers stand still. -/
def Obligations.HeldItemKeepsItsEventPresented : Prop :=
  ∀ (s t : State) (cyc : PortCycle), CycleTaken s cyc t → cyc.stalled = true → t.pins.rst = false →
    producerHolds cyc t.pins = true →
    t.state = s.state ∧ t.ctr = s.ctr ∧
    ∃ u cyc', CycleTaken t cyc' u ∧ cyc'.outputs.outValid = true ∧ cyc'.outputs.outTs = cyc.outputs.outTs ∧
      cyc'.outputs.outData = cyc.outputs.outData ∧ cyc'.outputs.outFlags = cyc.outputs.outFlags

/-- R45 (the spec's derivation): an item that stalls for any number of cycles and is then accepted leaves what it leaves
when accepted in its first cycle, but for the stalled cycles in the record. -/
def Obligations.StalledThenAcceptedIsAcceptedOnce : Prop :=
  ∀ (s : State) (r : RawSample) (n : Nat) (later : List Inputs) (k : EventKind),
    (decideItem s.state r.isCmd (classify s.cfg.config r.isCmd r.data)).action = .emit k →
    ∃ t u,
      runCycles (n + 1)
        (withInputs s (List.replicate n (presentInputs r false) ++ presentInputs r true :: later)) = .next t ∧
      step (withInputs s (presentInputs r true :: later)) = .next u ∧
      t.cfg = u.cfg ∧ t.state = u.state ∧ t.ctr = u.ctr ∧ t.pins = u.pins ∧ t.coming = u.coming ∧
      t.history.head? = u.history.head? ∧ t.history.length = u.history.length + n ∧
      acceptedItems t.history = acceptedItems u.history ∧ deliveredEvents t.history = deliveredEvents u.history

/-- R123, R126 (the spec's derivations): with `in_valid` and `out_ready` held at 1 outside reset, one item is accepted
in every cycle, and the events and registers are those of the transaction steps of the items in order. -/
def Obligations.ReadyStreamIsItsTransactions : Prop :=
  ∀ (s : State) (rs : List RawSample),
    ∃ t, runCycles rs.length (withInputs s (rs.map fun r => presentInputs r true)) = .next t ∧
      acceptedItems t.history = acceptedItems s.history ++ rs ∧
      deliveredEvents t.history =
        deliveredEvents s.history ++ (transactAll s.cfg.config s.state s.ctr rs).events ∧
      t.state = (transactAll s.cfg.config s.state s.ctr rs).state ∧
      t.ctr = (transactAll s.cfg.config s.state s.ctr rs).ctr

/-- R170 (the spec's derivation): after 2^N accepted items the counter is where it was, so timestamps repeat. -/
def Obligations.TimestampsRepeatAfterTwoToTheN : Prop :=
  ∀ (c : AdmittedConfig) (st : FilterState) (n : Nat) (rs : List RawSample), n < 2 ^ c.config.tsWidth →
    rs.length = 2 ^ c.config.tsWidth → (transactAll c.config st n rs).ctr = n

/-! ## Invariants of every run (R46, R47, R106, R124) -/

/-- The counter stays an N-bit value (R22). -/
def Obligations.CounterStaysInRange : Prop :=
  ∀ s t : State, CtrInRange s → step s = .next t → CtrInRange t

/-- R46, R123 (the spec's derivations): every step keeps the registers and the delivered events those that the
transaction step gives for the items accepted since the last reset, in their order. -/
def Obligations.StepKeepsTheReplayedStream : Prop :=
  ∀ s t : State, ReplaysAcceptedItems s → step s = .next t → ReplaysAcceptedItems t

/-- R106 (the spec's derivation): every step keeps the framing of the event stream and its tie to the FSM state. -/
def Obligations.StepKeepsTheFraming : Prop :=
  ∀ s t : State, FramedSinceReset s → step s = .next t → FramedSinceReset t

/-- R124 (the spec's derivation): every step keeps the accounting of items, events and drops. -/
def Obligations.StepKeepsTheAccounting : Prop :=
  ∀ s t : State, AccountedSinceReset s → step s = .next t → AccountedSinceReset t

/-- The invariants hold of every instance as constructed, the host's reset state among them. -/
def Obligations.InitialStatesMeetTheInvariants : Prop :=
  (∀ c : AdmittedConfig, CtrInRange (State.initial c) ∧ ReplaysAcceptedItems (State.initial c) ∧
    FramedSinceReset (State.initial c) ∧ AccountedSinceReset (State.initial c)) ∧
  CtrInRange State.reset ∧ ReplaysAcceptedItems State.reset ∧ FramedSinceReset State.reset ∧
    AccountedSinceReset State.reset

/-- R106: in a framed stream, two START events have a terminal event between them, and a terminal event has a START
event before it. -/
def Obligations.NoTwoStartsWithoutTerminal : Prop :=
  ∀ s : State, FramedSinceReset s →
    (∀ xs a ys b zs, deliveredEvents (sinceReset s.history) = xs ++ a :: (ys ++ b :: zs) →
      a.flags.isStart = true → b.flags.isStart = true → ∃ e ∈ ys, e.flags.terminal = true) ∧
    (∀ xs a zs, deliveredEvents (sinceReset s.history) = xs ++ a :: zs → a.flags.isStart = false →
      a.flags.terminal = true → ∃ e ∈ xs, e.flags.isStart = true)

/-- R47 (the spec's derivation): the event of the k-th accepted item since reset has timestamp k modulo 2^N. -/
def Obligations.TimestampCountsAcceptedItems : Prop :=
  ∀ s : State, AccountedSinceReset s → ∃ t cyc, CycleTaken s cyc t ∧
    ∀ e, cyc.deliveredEvent = some e →
      e.timestamp = (acceptedItems (sinceReset s.history)).length % 2 ^ s.cfg.config.tsWidth

/-- R46, R106, R123, R124: an instance of any admitted configuration, run for any number of cycles on any inputs, never
stops, and its stream is replayed, framed and accounted for. That the inputs are idle in the cycles after the listed ones
is the model's choice (log entry 4). -/
def Obligations.EveryRunIsFramedAndAccounted : Prop :=
  ∀ (c : AdmittedConfig) (ps : List Inputs) (n : Nat),
    ∃ t, runCycles n (withInputs (State.initial c) ps) = .next t ∧ t.cfg = c ∧ CtrInRange t ∧
      ReplaysAcceptedItems t ∧ FramedSinceReset t ∧ AccountedSinceReset t

/-- R150 says that instances share no state and affect each other in nothing. The bench `stepBench`, which gives every
instance one cycle of a common clock, is the model's choice (log entry 18): on that bench each instance ends where it ends
alone. -/
def Obligations.InstancesAreIndependent : Prop :=
  ∀ ss : List State, ∃ ts, stepBench ss = .next ts ∧ ts.length = ss.length ∧
    ∀ (n : Nat) (s : State), ss[n]? = some s → ∃ t, ts[n]? = some t ∧ step s = .next t
end

