-- ==== Sys2Proof/Laws/State.lean ====
section
/-! SUPPORT. One lemma per field for each update of the state and for each built record of signals, so that no later
proof unfolds one. -/

namespace Sys2Proof.Laws

open Machine

section FinishCycle
variable (p : Inputs) (d : Decision) (s : State)

@[simp] theorem finishCycle_cfg : (finishCycle p d s).cfg = s.cfg := rfl
@[simp] theorem finishCycle_state : (finishCycle p d s).state = nextState s.state p d := rfl
@[simp] theorem finishCycle_ctr :
    (finishCycle p d s).ctr = nextCtr s.cfg.config.tsWidth s.ctr p d.action := rfl
@[simp] theorem finishCycle_pins : (finishCycle p d s).pins = s.coming.headD Inputs.idle := rfl
@[simp] theorem finishCycle_coming : (finishCycle p d s).coming = s.coming.tail := rfl
@[simp] theorem finishCycle_history :
    (finishCycle p d s).history = ⟨p, outputsOf s.ctr p d.action⟩ :: s.history := rfl

end FinishCycle

section WithFetchWord
variable (s : State) (nbits w : Nat)

@[simp] theorem withFetchWord_cfg : (s.withFetchWord nbits w).cfg = s.cfg := rfl
@[simp] theorem withFetchWord_state : (s.withFetchWord nbits w).state = s.state := rfl
@[simp] theorem withFetchWord_ctr : (s.withFetchWord nbits w).ctr = s.ctr := rfl
@[simp] theorem withFetchWord_pins : (s.withFetchWord nbits w).pins = wordInputs (w % 2 ^ nbits) := rfl
@[simp] theorem withFetchWord_coming : (s.withFetchWord nbits w).coming = s.coming := rfl
@[simp] theorem withFetchWord_history : (s.withFetchWord nbits w).history = s.history := rfl

end WithFetchWord

section Initial
variable (c : AdmittedConfig)

@[simp] theorem initial_cfg : (State.initial c).cfg = c := rfl
@[simp] theorem initial_state : (State.initial c).state = .packetClosed := rfl
@[simp] theorem initial_ctr : (State.initial c).ctr = 0 := rfl
@[simp] theorem initial_pins : (State.initial c).pins = Inputs.idle := rfl
@[simp] theorem initial_coming : (State.initial c).coming = [] := rfl
@[simp] theorem initial_history : (State.initial c).history = [] := rfl

end Initial

section PresentInputs
variable (r : RawSample) (b : Bool)

@[simp] theorem presentInputs_rst : (presentInputs r b).rst = false := rfl
@[simp] theorem presentInputs_inValid : (presentInputs r b).inValid = true := rfl
@[simp] theorem presentInputs_inIsCmd : (presentInputs r b).inIsCmd = r.isCmd := rfl
@[simp] theorem presentInputs_inData : (presentInputs r b).inData = r.data := rfl
@[simp] theorem presentInputs_outReady : (presentInputs r b).outReady = b := rfl
@[simp] theorem presentInputs_item : (presentInputs r b).item = r := rfl

end PresentInputs

section OutputsOf
variable (n : Nat) (p : Inputs) (a : Action)

@[simp] theorem outputsOf_inReady : (outputsOf n p a).inReady = inReadyOf p a := rfl
@[simp] theorem outputsOf_outValid : (outputsOf n p a).outValid = outValidOf p a := rfl
@[simp] theorem outputsOf_outTs : (outputsOf n p a).outTs = n := rfl
@[simp] theorem outputsOf_outData : (outputsOf n p a).outData = p.inData := rfl
@[simp] theorem outputsOf_outFlags : (outputsOf n p a).outFlags = outFlagsOf p a := rfl

end OutputsOf

end Sys2Proof.Laws
end

