-- ==== Sys2Proof/Laws/Ops.lean ====
section
/-! SUPPORT. For each shared operation, what it can do, said once: a cycle accepts an emitted event, accepts a drop,
stalls, idles or resets. The provers cite these instead of unfolding the operations. -/

namespace Sys2Proof.Laws

open Machine

/-- R110, R111, R113, R115, R116: a presented item whose decision is to emit, at a ready consumer. -/
theorem finishCycle_emit_ready (r : RawSample) (k : EventKind) (st : FilterState) (s : State) :
    finishCycle (presentInputs r true) ⟨.emit k, st⟩ s =
      Safety.afterCycle s (presentInputs r true) (Safety.eventOutputs true s.ctr r.data k) st
        ((s.ctr + 1) % 2 ^ s.cfg.config.tsWidth) := rfl

/-- R119: a presented item whose decision is to emit, at a consumer that is not ready, stalls. -/
theorem finishCycle_emit_stall (r : RawSample) (k : EventKind) (st : FilterState) (s : State) :
    finishCycle (presentInputs r false) ⟨.emit k, st⟩ s =
      Safety.afterCycle s (presentInputs r false) (Safety.eventOutputs false s.ctr r.data k) s.state s.ctr := rfl

/-- R120: a presented item whose decision is to drop is accepted whatever the consumer does. -/
theorem finishCycle_drop (r : RawSample) (b : Bool) (st : FilterState) (s : State) :
    finishCycle (presentInputs r b) ⟨.drop, st⟩ s =
      Safety.afterCycle s (presentInputs r b) (Safety.quietOutputs true s.ctr r.data) st
        ((s.ctr + 1) % 2 ^ s.cfg.config.tsWidth) := by
  cases b <;> rfl

/-- R160, R161: a reset cycle, whatever the decision. -/
theorem finishCycle_reset (p : Inputs) (hr : p.rst = true) (d : Decision) (s : State) :
    finishCycle p d s =
      Safety.afterCycle s p (Safety.quietOutputs false s.ctr p.inData) .packetClosed 0 := by
  obtain ⟨a, st⟩ := d
  cases a <;>
    simp [finishCycle, Safety.afterCycle, Safety.quietOutputs, nextState, nextCtr, outputsOf, inReadyOf, outValidOf,
      outFlagsOf, hr]

/-- R121: an idle cycle, whatever the decision. -/
theorem finishCycle_idle (p : Inputs) (hr : p.rst = false) (hv : p.inValid = false) (d : Decision) (s : State) :
    finishCycle p d s =
      Safety.afterCycle s p (Safety.quietOutputs false s.ctr p.inData) s.state s.ctr := by
  obtain ⟨a, st⟩ := d
  cases a <;>
    simp [finishCycle, Safety.afterCycle, Safety.quietOutputs, nextState, nextCtr, outputsOf, inReadyOf, outValidOf,
      outFlagsOf, acceptOf, hr, hv]

/-- The inputs of an item cycle outside reset are those that present their own item. -/
theorem presentInputs_item_self (p : Inputs) (hr : p.rst = false) (hv : p.inValid = true) :
    presentInputs p.item p.outReady = p := by
  cases p
  simp_all [presentInputs, Inputs.item]

/-- Every item is the encoding of what it decodes to, under any configuration. -/
theorem encode_decode (c : Config) (r : RawSample) : encode c (decode c r) = r := by
  obtain ⟨cmd, d⟩ := r
  have byte : ∀ code, definingBit d = false ∧ lineStateCode d = code →
      lineStateByte code (topBit d) (lowBits d) = d := by
    intro code
    revert d code
    decide
  unfold decode classOf
  cases cmd
  · rfl
  · simp only [Bool.true_eq_false, if_false]
    split_ifs <;> simp_all [instrOf, encode]

/-- A line-state byte has its defining bit clear and its code in bits 5 and 4 (R55). -/
theorem lineStateByte_fields (code : BitVec 2) (top : BitVec 1) (low : BitVec 4) :
    definingBit (lineStateByte code top low) = false ∧ lineStateCode (lineStateByte code top low) = code := by
  revert code top low
  decide

/-- Every sentinel of an admitted configuration has its defining bit set (R26). -/
theorem sentinelByte_definingBit (c : AdmittedConfig) (k : Sentinel) :
    definingBit (c.config.sentinelByte k) = true := by
  obtain ⟨-, h1, h2, h3, h4, -⟩ := c.ok
  cases k <;> assumption

/-- No line-state byte is a sentinel of an admitted configuration (R57). -/
theorem lineStateByte_ne_sentinel (c : AdmittedConfig) (code : BitVec 2) (top : BitVec 1) (low : BitVec 4)
    (k : Sentinel) : lineStateByte code top low ≠ c.config.sentinelByte k := by
  intro h
  have hb := (lineStateByte_fields code top low).1
  rw [h, sentinelByte_definingBit] at hb
  cases hb

/-- The class of a line-state byte is given by its code (R82). -/
theorem classOf_lineStateByte (c : AdmittedConfig) (code : BitVec 2) (top : BitVec 1) (low : BitVec 4) :
    classOf c.config ⟨true, lineStateByte code top low⟩ =
      if code = 0 then .lsInactive else if code = 1 then .lsActive else if code = 2 then .lsReserved
      else .lsError := by
  have hs := lineStateByte_ne_sentinel c code top low .start
  have he := lineStateByte_ne_sentinel c code top low .ending
  have ho := lineStateByte_ne_sentinel c code top low .overflow
  have hn := lineStateByte_ne_sentinel c code top low .noaction
  have hcode : ∀ x : BitVec 2, x = 0 ∨ x = 1 ∨ x = 2 ∨ x = 3 := by decide
  simp only [Config.sentinelByte] at hs he ho hn
  simp only [classOf, hs, he, ho, hn, lineStateByte_fields, Bool.true_eq_false, if_false, true_and]
  obtain rfl | rfl | rfl | rfl := hcode code <;> rfl

/-- What one step is: the three kinds of cycle in the priority order of R145. -/
theorem step_cases (s : State) :
    (s.pins.rst = true ∧ step s = .next (resetCycle s)) ∨
    (s.pins.rst = false ∧ s.pins.inValid = false ∧ step s = .next (idleCycle s)) ∨
    (s.pins.rst = false ∧ s.pins.inValid = true ∧
      step s = exec (decode s.cfg.config s.pins.item) s) := by
  unfold step fetch
  cases hr : s.pins.rst <;> cases hv : s.pins.inValid <;> simp

/-- What every instruction does, said once: the cycle that presents its item, with the decision of the transition
table for its class. -/
theorem exec_eq_finishCycle (i : Instr) (s : State) :
    exec i s = .next (finishCycle (presentInputs (encode s.cfg.config i) s.pins.outReady)
      (Safety.transitionTable i.itemClass s.state) s) := by
  cases i <;>
    simp only [exec, execPlain, execCmdNoaction, execCmdStart, execCmdEnd, execCmdOvf, execLsInactive, execLsActive,
      execLsReserved, execLsError, execCmdOther, presentItem, Instr.itemClass, passPlain, ignoreItem, openPacket,
      closePacket] <;>
    cases s.state <;> rfl

/-- A run whose first cycle ends in `t` goes on from `t`. -/
theorem runCycles_next (n : Nat) {s t : State} (h : step s = .next t) : runCycles (n + 1) s = runCycles n t := by
  simp [runCycles, h]

end Sys2Proof.Laws
end

