-- ==== Sys2Proof/Laws/PerInstr.lean ====
section
/-! SUPPORT. Statements about every instruction, one lemma per constructor: the class of an encoded well-formed
instruction is its own class (spec/40_classifier.md R82). -/

namespace Sys2Proof.Laws.EncodedClass

open Machine

/-- The class function, read on the encoding of `i`, gives the class of `i`. -/
def Statement (i : Instr) : Prop :=
  ∀ c : AdmittedConfig, wellFormed c.config i = true → classOf c.config (encode c.config i) = i.itemClass

theorem plain (data : Byte) : Statement (.plain data) := fun _ _ => rfl

theorem cmdNoaction : Statement .cmdNoaction := by
  intro c _
  simp [classOf, encode, Instr.itemClass]

theorem cmdStart : Statement .cmdStart := by
  intro ⟨c, h⟩ _
  simp [classOf, encode, Instr.itemClass, h.2.2.2.2.2.2.2.1]

theorem cmdEnd : Statement .cmdEnd := by
  intro ⟨c, h⟩ _
  obtain ⟨-, -, -, -, -, h1, -, -, -, h2, -⟩ := h
  simp [classOf, encode, Instr.itemClass, h2, h1.symm]

theorem cmdOvf : Statement .cmdOvf := by
  intro ⟨c, h⟩ _
  obtain ⟨-, -, -, -, -, -, h1, -, h2, -, h3⟩ := h
  simp [classOf, encode, Instr.itemClass, h3, h1.symm, h2.symm]

theorem lsInactive (top : BitVec 1) (low : BitVec 4) : Statement (.lsInactive top low) := fun c _ =>
  classOf_lineStateByte c 0 top low

theorem lsActive (top : BitVec 1) (low : BitVec 4) : Statement (.lsActive top low) := fun c _ =>
  classOf_lineStateByte c 1 top low

theorem lsReserved (top : BitVec 1) (low : BitVec 4) : Statement (.lsReserved top low) := fun c _ =>
  classOf_lineStateByte c 2 top low

theorem lsError (top : BitVec 1) (low : BitVec 4) : Statement (.lsError top low) := fun c _ =>
  classOf_lineStateByte c 3 top low

theorem cmdOther (data : Byte) : Statement (.cmdOther data) := by
  intro c h
  simp only [wellFormed, Bool.and_eq_true, bne_iff_ne, ne_eq] at h
  simp [classOf, encode, Instr.itemClass, h]

end Sys2Proof.Laws.EncodedClass
end

