-- ==== Sys2Proof/Laws/Record.lean ====
section
/-! SUPPORT. The small lemmas of the record functions, the framing reader and the transaction run: what one more cycle,
one more reset or one more item does to each. -/

namespace Sys2Proof.Laws

open Machine Safety

section Record
variable (c : PortCycle) (older : List PortCycle)

@[simp] theorem sinceReset_reset (h : c.inputs.rst = true) : sinceReset (c :: older) = [] := by simp [sinceReset, h]

@[simp] theorem sinceReset_cycle (h : c.inputs.rst = false) : sinceReset (c :: older) = c :: sinceReset older := by
  simp [sinceReset, h]

@[simp] theorem acceptedItems_nil : acceptedItems [] = [] := rfl
@[simp] theorem acceptedItems_cons :
    acceptedItems (c :: older) = acceptedItems older ++ c.acceptedItem.toList := rfl
@[simp] theorem deliveredEvents_nil : deliveredEvents [] = [] := rfl
@[simp] theorem deliveredEvents_cons :
    deliveredEvents (c :: older) = deliveredEvents older ++ c.deliveredEvent.toList := rfl
@[simp] theorem droppedItems_nil : droppedItems [] = [] := rfl
@[simp] theorem droppedItems_cons :
    droppedItems (c :: older) = droppedItems older ++ c.droppedItem.toList := rfl

end Record

/-- Reading a framed stream in two parts. -/
theorem framing_append (st : FilterState) (xs ys : List PacketEvent) :
    framing st (xs ++ ys) = (framing st xs).bind fun mid => framing mid ys := by
  induction xs generalizing st with
  | nil => rfl
  | cons x xs ih =>
    simp only [List.cons_append, framing]
    split_ifs <;> cases st <;> simp [ih]

/-- One more accepted item at the end of a run of transactions. -/
theorem transactAll_append_one (c : Config) (st : FilterState) (n : Nat) (xs : List RawSample) (r : RawSample) :
    transactAll c st n (xs ++ [r]) =
      ⟨(transactAll c st n xs).events ++
          (transact c (transactAll c st n xs).state (transactAll c st n xs).ctr r).event.toList,
        (transact c (transactAll c st n xs).state (transactAll c st n xs).ctr r).state,
        (transact c (transactAll c st n xs).state (transactAll c st n xs).ctr r).ctr⟩ := by
  induction xs generalizing st n with
  | nil => simp [transactAll]
  | cons x xs ih => simp [transactAll, ih]

end Sys2Proof.Laws
end

