-- ==== Sys2Proof/Tests/Slice0.lean ====
section
/-! SUPPORT. Tests. Expected values are those of spec/95_test_vectors.md, whose vector is named, or are worked by hand
from the rule named. Then one witness for each statement that has hypotheses: a concrete state and operands that meet
them together. -/

namespace Sys2Proof.Tests

open Machine Safety

/-! ## WellFormed: an ill-formed term for each check (R56 row 10, REF) -/

theorem test_wellFormed_refuses_bit6_clear : wellFormed Config.ref (.cmdOther 0x20) = false := by decide
theorem test_wellFormed_refuses_noaction : wellFormed Config.ref (.cmdOther 0xF3) = false := by decide
theorem test_wellFormed_refuses_start : wellFormed Config.ref (.cmdOther 0xF0) = false := by decide
theorem test_wellFormed_refuses_end : wellFormed Config.ref (.cmdOther 0xF1) = false := by decide
theorem test_wellFormed_refuses_overflow : wellFormed Config.ref (.cmdOther 0xF2) = false := by decide
theorem test_wellFormed_admits_other : wellFormed Config.ref (.cmdOther 0xF4) = true := by decide

/-! ## Decoding of words written out from R56 (vectors L2.1) -/

theorem test_decode_plain : decodeTableWord 16 0b011110000 = some (.plain 0xF0) := by decide
theorem test_decode_noaction : decodeTableWord 16 0b111110011 = some .cmdNoaction := by decide
theorem test_decode_start : decodeTableWord 16 0b111110000 = some .cmdStart := by decide
theorem test_decode_end : decodeTableWord 16 0b111110001 = some .cmdEnd := by decide
theorem test_decode_ovf : decodeTableWord 16 0b111110010 = some .cmdOvf := by decide
theorem test_decode_inactive : decodeTableWord 16 0b110000000 = some (.lsInactive 1 0) := by decide
theorem test_decode_active : decodeTableWord 16 0b110011111 = some (.lsActive 1 0xF) := by decide
theorem test_decode_reserved : decodeTableWord 16 0b100101010 = some (.lsReserved 0 0xA) := by decide
theorem test_decode_error : decodeTableWord 16 0b110110000 = some (.lsError 1 0) := by decide
theorem test_decode_other : decodeTableWord 16 0b101010000 = some (.cmdOther 0x50) := by decide
theorem test_decode_refuses_tenth_bit : decodeTableWord 16 0b1000000000 = none := by decide

/-- ALT, the other admitted configuration of vector K7. -/
def alt : AdmittedConfig := ⟨⟨0xC0, 0xC5, 0x7E, 0x40, 8⟩, by decide⟩

/-- P5: under ALT, 0xF0 is no sentinel and 0x40 is NOACTION. -/
theorem test_decode_under_alt : decodeWord alt.config 0x1F0 = .ok (.cmdOther 0xF0) ∧
    decodeWord alt.config 0x140 = .ok .cmdNoaction := by decide

/-! ## One item in each FSM state (vectors L2.2): the event, the state and the counter after -/

/-- A REF instance with counter 5. -/
def filterAt (st : FilterState) : State := { State.reset with state := st, ctr := 5 }

/-- What one step left: the delivered event and the registers. -/
def seen : Host.Outcome State Fault Refusal → Option (Option PacketEvent × FilterState × Nat)
  | .next t => some ((t.history.head?.bind PortCycle.deliveredEvent), t.state, t.ctr)
  | _ => none

/-- One step on the word `w` presented to a ready consumer. -/
def after (st : FilterState) (w : Nat) : Option (Option PacketEvent × FilterState × Nat) :=
  seen (step ((filterAt st).withFetchWord 16 w))

theorem test_plain_closed : after .packetClosed 0x055 =
    some (some ⟨5, 0x55, ⟨false, false, false, false⟩⟩, .packetClosed, 6) := by decide
theorem test_plain_open : after .packetOpen 0x055 =
    some (some ⟨5, 0x55, ⟨false, false, false, false⟩⟩, .packetOpen, 6) := by decide
theorem test_noaction_closed : after .packetClosed 0x1F3 = some (none, .packetClosed, 6) := by decide
theorem test_noaction_open : after .packetOpen 0x1F3 = some (none, .packetOpen, 6) := by decide
theorem test_start_closed : after .packetClosed 0x1F0 =
    some (some ⟨5, 0xF0, ⟨true, false, false, false⟩⟩, .packetOpen, 6) := by decide
theorem test_start_open : after .packetOpen 0x1F0 = some (none, .packetOpen, 6) := by decide
theorem test_active_closed : after .packetClosed 0x110 =
    some (some ⟨5, 0x10, ⟨true, false, false, false⟩⟩, .packetOpen, 6) := by decide
theorem test_active_open : after .packetOpen 0x110 = some (none, .packetOpen, 6) := by decide
theorem test_end_closed : after .packetClosed 0x1F1 = some (none, .packetClosed, 6) := by decide
theorem test_end_open : after .packetOpen 0x1F1 =
    some (some ⟨5, 0xF1, ⟨false, true, false, false⟩⟩, .packetClosed, 6) := by decide
theorem test_inactive_closed : after .packetClosed 0x100 = some (none, .packetClosed, 6) := by decide
theorem test_inactive_open : after .packetOpen 0x100 =
    some (some ⟨5, 0x00, ⟨false, true, false, false⟩⟩, .packetClosed, 6) := by decide
theorem test_error_closed : after .packetClosed 0x130 = some (none, .packetClosed, 6) := by decide
theorem test_error_open : after .packetOpen 0x130 =
    some (some ⟨5, 0x30, ⟨false, false, true, false⟩⟩, .packetClosed, 6) := by decide
theorem test_ovf_closed : after .packetClosed 0x1F2 = some (none, .packetClosed, 6) := by decide
theorem test_ovf_open : after .packetOpen 0x1F2 =
    some (some ⟨5, 0xF2, ⟨false, false, false, true⟩⟩, .packetClosed, 6) := by decide
theorem test_reserved_closed : after .packetClosed 0x120 = some (none, .packetClosed, 6) := by decide
theorem test_reserved_open : after .packetOpen 0x120 = some (none, .packetOpen, 6) := by decide
theorem test_other_closed : after .packetClosed 0x1F4 = some (none, .packetClosed, 6) := by decide
theorem test_other_open : after .packetOpen 0x1F4 = some (none, .packetOpen, 6) := by decide

/-! ## Single cycles (vectors L2.3, L2.4), configuration (L2.5) and packed events (P1) -/

/-- One cycle on the given inputs: the outputs and the registers after. -/
def cycleOf (s : State) (p : Inputs) : Option (Option Outputs × FilterState × Nat) :=
  match step { s with pins := p } with
  | .next t => some (t.history.head?.map PortCycle.outputs, t.state, t.ctr)
  | _ => none

/-- H2: an emit item stalls. -/
theorem test_stall : cycleOf { State.reset with ctr := 2 } ⟨false, true, true, 0x10, false⟩ =
    some (some ⟨false, true, 2, 0x10, ⟨true, false, false, false⟩⟩, .packetClosed, 2) := by decide

/-- H4: a drop ignores `out_ready`. -/
theorem test_drop_ignores_consumer : cycleOf { State.reset with ctr := 2 } ⟨false, true, true, 0xF1, false⟩ =
    some (some ⟨true, false, 2, 0xF1, ⟨false, false, false, false⟩⟩, .packetClosed, 3) := by decide

/-- H6: an idle cycle. -/
theorem test_idle : cycleOf { State.reset with state := .packetOpen, ctr := 2 } ⟨false, false, false, 0, true⟩ =
    some (some ⟨false, false, 2, 0, ⟨false, false, false, false⟩⟩, .packetOpen, 2) := by decide

/-- H8: a reset cycle. -/
theorem test_reset : cycleOf { State.reset with state := .packetOpen, ctr := 2 } ⟨true, true, true, 0x00, true⟩ =
    some (some ⟨false, false, 2, 0, ⟨false, false, false, false⟩⟩, .packetClosed, 0) := by decide

/-- W1: the counter wraps after timestamp 65535. -/
theorem test_wrap : seen (step (({ State.reset with state := .packetOpen, ctr := 65535 } : State).withFetchWord 16 0x055)) =
    some (some ⟨65535, 0x55, ⟨false, false, false, false⟩⟩, .packetOpen, 0) := by decide

/-- K2 to K5, by the clause each fails. -/
theorem test_failed_clauses :
    failedClauses ⟨0x20, 0xF1, 0xF2, 0xF3, 16⟩ = [.bit6Clear .start] ∧
    failedClauses ⟨0xF0, 0xF0, 0xF2, 0xF3, 16⟩ = [.sameByte .start .ending] ∧
    failedClauses ⟨0xF0, 0xF1, 0xF2, 0xF3, 0⟩ = [.widthZero] ∧
    failedClauses ⟨0xF0, 0xF1, 0x10, 0xF3, 16⟩ = [.bit6Clear .overflow] := by decide

/-- K1, K6, K7: admitted configurations. -/
theorem test_admitted : ConfigOK Config.ref ∧ ConfigOK ⟨0xF0, 0xF1, 0xF2, 0x40, 16⟩ ∧ ConfigOK alt.config := by decide

/-- P1: the packed START event. -/
theorem test_packed_event : packEvent 16 ⟨1, 0x10, kindFlags .startKind⟩ = 0x0001108#28 := by decide

/-- R167: a producer that withdraws a stalled item breaks its duty; one that holds it keeps it. -/
theorem test_producer_duty :
    let stalled : PortCycle := ⟨⟨false, true, false, 0xAB, false⟩, eventOutputs false 2 0xAB .plainKind⟩
    producerKeptDuty [⟨Inputs.idle, quietOutputs false 2 0⟩, stalled] = false ∧
    producerKeptDuty [⟨⟨false, true, false, 0xAB, true⟩, eventOutputs true 2 0xAB .plainKind⟩, stalled] = true := by
  decide

/-! ## Witnesses -/

/-- A REF instance in the state `st` with counter `n` and the inputs `p`. -/
def placed (st : FilterState) (n : Nat) (p : Inputs) : State := { State.reset with state := st, ctr := n, pins := p }

/-- The inputs that present `C d` (`cmd` true) or `D d`. -/
def present (cmd : Bool) (d : Byte) (ready : Bool) : Inputs := presentInputs ⟨cmd, d⟩ ready

theorem witness_ReservedAndUnknownBytesSetNoFlag : (0xF4 : Byte).getLsbD 6 = true ∧
    ∀ k, (0xF4 : Byte) ≠ AdmittedConfig.ref.config.sentinelByte k :=
  ⟨by decide, fun k => by cases k <;> decide⟩

theorem witness_ClassRowsAreDisjointAndTotal :
    (⟨.cmdStart, 0x1FF, 0x1F0⟩ : ClassRow) ∈ classRows Config.ref ∧
    (⟨.cmdOther, 0x140, 0x140⟩ : ClassRow) ∈ classRows Config.ref ∧
    (⟨.cmdStart, 0x1FF, 0x1F0⟩ : ClassRow).matchesWord 0x1F0 = true ∧
    (⟨.cmdOther, 0x140, 0x140⟩ : ClassRow).matchesWord 0x1F0 = true := by decide

theorem witness_DecodeOfEncodeIsTheInstruction : wellFormed AdmittedConfig.ref.config (.cmdOther 0x40) = true := by decide

theorem witness_PackedEventFieldsReadBack : (7 : Nat) < 2 ^ 3 := by decide

theorem witness_ConstructionAdmitsOrRefuses : ¬ ConfigOK ⟨0xF0, 0xF0, 0xF2, 0xF3, 16⟩ := by decide

theorem witness_ResetCycleResetsTheRegisters :
    (placed .packetOpen 1234 ⟨true, true, true, 0x10, true⟩).pins.rst = true := by decide

/-- Vector Z2: the item stalled before the reset is presented again after it. -/
theorem witness_ItemAfterResetStartsAfresh :
    let s := { placed .packetClosed 4 ⟨true, true, true, 0x10, false⟩ with coming := [present true 0x10 true] }
    s.pins.rst = true ∧ s.coming = presentInputs ⟨true, 0x10⟩ true :: [] := by decide

theorem witness_PlainIsForwarded : (placed .packetClosed 5 (present false 0x55 true)).pins.outReady = true := by decide

theorem witness_StartMarkerOpensPacket :
    (placed .packetClosed 5 (present true 0xF0 true)).state = .packetClosed ∧
    (placed .packetClosed 5 (present true 0xF0 true)).pins.outReady = true ∧
    (placed .packetOpen 5 (present true 0xF0 false)).state = .packetOpen := by decide

theorem witness_ActiveLineStateOpensPacket :
    (placed .packetClosed 5 (present true 0x9F true)).state = .packetClosed ∧
    (placed .packetClosed 5 (present true 0x9F true)).pins.outReady = true ∧
    (placed .packetOpen 5 (present true 0x9F false)).state = .packetOpen := by decide

theorem witness_EndMarkerClosesPacket :
    (placed .packetOpen 5 (present true 0xF1 true)).state = .packetOpen ∧
    (placed .packetOpen 5 (present true 0xF1 true)).pins.outReady = true ∧
    (placed .packetClosed 5 (present true 0xF1 false)).state = .packetClosed := by decide

theorem witness_InactiveLineStateClosesPacket :
    (placed .packetOpen 5 (present true 0x8F true)).state = .packetOpen ∧
    (placed .packetOpen 5 (present true 0x8F true)).pins.outReady = true ∧
    (placed .packetClosed 5 (present true 0x8F false)).state = .packetClosed := by decide

theorem witness_ErrorLineStateClosesPacket :
    (placed .packetOpen 5 (present true 0xB0 true)).state = .packetOpen ∧
    (placed .packetOpen 5 (present true 0xB0 true)).pins.outReady = true ∧
    (placed .packetClosed 5 (present true 0xB0 false)).state = .packetClosed := by decide

theorem witness_OverflowMarkerClosesPacket :
    (placed .packetOpen 5 (present true 0xF2 true)).state = .packetOpen ∧
    (placed .packetOpen 5 (present true 0xF2 true)).pins.outReady = true ∧
    (placed .packetClosed 5 (present true 0xF2 false)).state = .packetClosed := by decide

theorem witness_UnknownCommandIsDropped :
    wellFormed State.reset.cfg.config (.cmdOther 0x7F) = true := by decide

theorem witness_DecisionFunctionGuards :
    (classify Config.ref true 0xF3).isNoactionMarker = true ∧
    (classify Config.ref true 0xF0).isNoactionMarker = false ∧ (classify Config.ref true 0xF0).isStartMarker = true ∧
    (classify Config.ref true 0xF2).isNoactionMarker = false ∧ (classify Config.ref true 0xF2).isOvfMarker = true := by
  decide

theorem witness_DecisionIsTheTransitionTable : wellFormed State.reset.cfg.config (.lsError 1 0xF) = true := by decide

theorem witness_EmitStallsUntilConsumerReady :
    (placed .packetOpen 2 (present true 0xF2 false)).pins.outReady = false ∧
    (transitionTable Instr.cmdOvf.itemClass (placed .packetOpen 2 (present true 0xF2 false)).state).action =
      .emit .ovfKind := by decide

theorem witness_DropIgnoresConsumer :
    (transitionTable Instr.cmdEnd.itemClass (placed .packetClosed 2 (present true 0xF1 false)).state).action = .drop := by
  decide

theorem witness_IdleCycleKeepsTheRegisters :
    (placed .packetOpen 2 Inputs.idle).pins.rst = false ∧ (placed .packetOpen 2 Inputs.idle).pins.inValid = false := by decide

theorem witness_StepRunsTheDecodedItem :
    (placed .packetClosed 0 (present true 0x1F true)).pins.rst = false ∧
    (placed .packetClosed 0 (present true 0x1F true)).pins.inValid = true ∧
    wellFormed State.reset.cfg.config (.lsActive 0 0xF) = true ∧
    (placed .packetClosed 0 (present true 0x1F true)).pins =
      presentInputs (encode State.reset.cfg.config (.lsActive 0 0xF)) true := by decide

theorem witness_ClassificationIgnoresTheRegisters :
    let s := placed .packetClosed 0 (present true 0x10 true)
    let s' := placed .packetOpen 9 (present true 0x10 true)
    s.cfg = s'.cfg ∧ s.pins = s'.pins ∧ s.state ≠ s'.state := by decide

/-- The cycle that step records for `s`, where it ends in a next state. -/
def recorded (s : State) : Option PortCycle :=
  match step s with
  | .next t => t.history.head?
  | _ => none

theorem witness_StateUpdateRule :
    (placed .packetOpen 2 (present true 0x20 true)).pins.rst = false ∧
    (recorded (placed .packetOpen 2 (present true 0x20 true))).bind PortCycle.deliveredEvent = none := by decide

theorem witness_DeliveryIsAcceptanceOfAnEmit :
    ((recorded (placed .packetOpen 2 (present true 0x30 true))).map PortCycle.accepted) = some true ∧
    ((recorded (placed .packetOpen 2 (present true 0x30 true))).bind PortCycle.deliveredEvent).isSome = true := by decide

theorem witness_TimestampIsSampledBeforeIncrement :
    (placed .packetClosed 0 (present false 0x55 true)).ctr = 0 ∧
    (placed .packetClosed 0 (present false 0x55 true)).pins = presentInputs ⟨false, 0x55⟩ true ∧
    (recorded (placed .packetOpen 3 (present false 0xAA true))).bind PortCycle.deliveredEvent =
      some ⟨3, 0xAA, EventFlags.none⟩ := by decide

theorem witness_CounterWrapsSilently :
    let s := placed .packetClosed 65535 (present false 0x01 true)
    s.ctr = 2 ^ s.cfg.config.tsWidth - 1 ∧ s.pins.rst = false ∧ s.pins.inValid = true ∧ s.pins.outReady = true := by
  decide

theorem witness_DeliveredEventsHaveOneOfFiveKinds :
    (recorded (placed .packetOpen 2 (present true 0x30 true))).bind PortCycle.deliveredEvent =
      some ⟨2, 0x30, kindFlags .errKind⟩ := by decide

theorem witness_ReadyCycleIsOneTransaction :
    let s := placed .packetOpen 2 (present true 0xF2 true)
    s.pins.rst = false ∧ s.pins.inValid = true ∧ s.pins.outReady = true := by decide

/-- Two states that agree on everything an output depends on and differ in what comes later; and two whose consumers and
counters differ, which meet the hypotheses on `out_valid` alone. -/
theorem witness_OutputsDependOnlyOnTheirInputs :
    let s := placed .packetOpen 2 (present true 0x30 true)
    let s' := { s with coming := [Inputs.idle, Inputs.idle] }
    let u := placed .packetOpen 7 (present true 0x30 false)
    (s ≠ s' ∧ s.cfg = s'.cfg ∧ s.ctr = s'.ctr ∧ s.state = s'.state ∧ s.pins.rst = s'.pins.rst ∧
      s.pins.inValid = s'.pins.inValid ∧ s.pins.item = s'.pins.item ∧ s.pins.inData = s'.pins.inData ∧
      s.pins.outReady = s'.pins.outReady) ∧
    s.cfg = u.cfg ∧ s.state = u.state ∧ s.pins.rst = u.pins.rst ∧ s.pins.inValid = u.pins.inValid ∧
      s.pins.item = u.pins.item ∧ s.ctr ≠ u.ctr ∧ s.pins.outReady ≠ u.pins.outReady := by decide

/-- P6, cycles 4 and 5: `D 0xAB` stalls and is held. -/
theorem witness_HeldItemKeepsItsEventPresented :
    ∃ s t cyc, CycleTaken s cyc t ∧ cyc.stalled = true ∧ t.pins.rst = false ∧ producerHolds cyc t.pins = true :=
  ⟨{ placed .packetOpen 2 (present false 0xAB false) with coming := [present false 0xAB false] }, _, _,
    ⟨rfl, rfl, rfl⟩, by decide, by decide, by decide⟩

theorem witness_StalledThenAcceptedIsAcceptedOnce :
    (decideItem (placed .packetClosed 0 Inputs.idle).state true (classify State.reset.cfg.config true 0x10)).action =
      .emit .startKind := by decide

/-- N = 1: two items bring the counter back. -/
theorem witness_TimestampsRepeatAfterTwoToTheN :
    let c : AdmittedConfig := ⟨⟨0xF0, 0xF1, 0xF2, 0xF3, 1⟩, by decide⟩
    (1 : Nat) < 2 ^ c.config.tsWidth ∧
    [(⟨false, 0x55⟩ : RawSample), ⟨false, 0x66⟩].length = 2 ^ c.config.tsWidth := by decide

/-- The invariants' hypotheses: a state in which a packet was opened by the first item, about to close it. -/
def opened : State :=
  { placed .packetOpen 1 (present true 0xF1 true) with
    history := [⟨present true 0x10 true, eventOutputs true 0 0x10 .startKind⟩] }

theorem witness_CounterStaysInRange : CtrInRange opened ∧ ∃ t, step opened = .next t :=
  ⟨by unfold CtrInRange; decide, _, rfl⟩

theorem witness_StepKeepsTheReplayedStream : ReplaysAcceptedItems opened ∧ ∃ t, step opened = .next t :=
  ⟨by unfold ReplaysAcceptedItems; decide, _, rfl⟩

theorem witness_StepKeepsTheFraming : FramedSinceReset opened ∧ ∃ t, step opened = .next t :=
  ⟨by unfold FramedSinceReset; decide, _, rfl⟩

theorem witness_StepKeepsTheAccounting : AccountedSinceReset opened ∧ ∃ t, step opened = .next t :=
  ⟨by unfold AccountedSinceReset; decide, _, rfl⟩

theorem witness_TimestampCountsAcceptedItems : AccountedSinceReset opened ∧
    (recorded opened).bind PortCycle.deliveredEvent = some ⟨1, 0xF1, kindFlags .endKind⟩ :=
  ⟨by unfold AccountedSinceReset; decide, by decide⟩

/-- A closed and reopened packet: START, END, START. -/
def reopened : State :=
  { placed .packetOpen 3 Inputs.idle with
    history := [⟨present true 0xF0 true, eventOutputs true 2 0xF0 .startKind⟩,
      ⟨present true 0xF1 true, eventOutputs true 1 0xF1 .endKind⟩,
      ⟨present true 0x10 true, eventOutputs true 0 0x10 .startKind⟩] }

theorem witness_NoTwoStartsWithoutTerminal : FramedSinceReset reopened ∧
    (deliveredEvents (sinceReset reopened.history) =
      [] ++ ⟨0, 0x10, kindFlags .startKind⟩ :: ([⟨1, 0xF1, kindFlags .endKind⟩] ++
        ⟨2, 0xF0, kindFlags .startKind⟩ :: [])) ∧
    (deliveredEvents (sinceReset reopened.history) =
      [⟨0, 0x10, kindFlags .startKind⟩] ++ ⟨1, 0xF1, kindFlags .endKind⟩ :: [⟨2, 0xF0, kindFlags .startKind⟩]) ∧
    (kindFlags .startKind).isStart = true ∧ (kindFlags .endKind).isStart = false ∧
    (kindFlags .endKind).terminal = true :=
  ⟨by unfold FramedSinceReset; decide, by decide, by decide, by decide, by decide, by decide⟩

theorem witness_InstancesAreIndependent : [opened, reopened][1]? = some reopened := rfl

end Sys2Proof.Tests
end

namespace Sys2Proof.Proofs.Classifier

/-! SUPPORT. The classifier (spec/40_classifier.md). First the two fields of a data byte that it reads, as numbers and
as bits; then what the four sentinels of an admitted configuration are; then each flag and, for each kind of RxCmd byte,
the whole flag set. The statements of the family are put together from these. -/

open Machine Laws

/-! ## The fields of a byte (R7, R55) -/

/-- The defining bit in the arithmetic of R7. -/
theorem definingBit_eq_false_iff (d : Byte) : definingBit d = false ↔ d.toNat / 64 % 2 = 0 := by
  have bit_as_number : definingBit d = decide (d.toNat / 64 % 2 = 1) := by
    simp [definingBit, BitVec.getLsbD, Nat.testBit_eq_decide_div_mod_eq]
  rw [bit_as_number, decide_eq_false_iff_not]
  omega

/-- The line-state code in the arithmetic of R7. -/
theorem lineStateCode_eq_iff (d : Byte) (code : BitVec 2) :
    lineStateCode d = code ↔ d.toNat / 16 % 4 = code.toNat := by
  rw [← BitVec.toNat_inj, lineStateCode, BitVec.extractLsb'_toNat, Nat.shiftRight_eq_div_pow]

/-- R55: bits 6, 5 and 4 given together, bit 6 clear, make the line-state byte of that code. -/
theorem append_clear_bit_code (code : BitVec 2) (top : BitVec 1) (low : BitVec 4) :
    top ++ (0#1 ++ code) ++ low = lineStateByte code top low := by
  revert code top low
  decide

/-! ## The sentinels (R26) -/

/-- The four sentinels of an admitted configuration are four different bytes (the six pairs of R26). -/
theorem sentinelByte_injective (c : AdmittedConfig) : Function.Injective c.config.sentinelByte := by
  obtain ⟨-, -, -, -, -, start_end, start_ovf, start_noaction, end_ovf, end_noaction, ovf_noaction⟩ := c.ok
  intro a b same
  cases a <;> cases b <;> simp_all [Config.sentinelByte]

/-! ## The flags one by one (R72 to R78) -/

section Flags
variable (c : Config) (cmd : Bool) (d : Byte)

@[simp] theorem isStartMarker_iff : (classify c cmd d).isStartMarker = true ↔ cmd = true ∧ d = c.startByte := by
  simp [classify]

@[simp] theorem isEndMarker_iff : (classify c cmd d).isEndMarker = true ↔ cmd = true ∧ d = c.endByte := by
  simp [classify]

@[simp] theorem isOvfMarker_iff : (classify c cmd d).isOvfMarker = true ↔ cmd = true ∧ d = c.overflowByte := by
  simp [classify]

@[simp] theorem isNoactionMarker_iff :
    (classify c cmd d).isNoactionMarker = true ↔ cmd = true ∧ d = c.noactionByte := by
  simp [classify]

@[simp] theorem isActive_iff :
    (classify c cmd d).isActive = true ↔ cmd = true ∧ definingBit d = false ∧ lineStateCode d = 1 := by
  simp [classify, and_assoc]

@[simp] theorem isInactive_iff :
    (classify c cmd d).isInactive = true ↔ cmd = true ∧ definingBit d = false ∧ lineStateCode d = 0 := by
  simp [classify, and_assoc]

@[simp] theorem isError_iff :
    (classify c cmd d).isError = true ↔ cmd = true ∧ definingBit d = false ∧ lineStateCode d = 3 := by
  simp [classify, and_assoc]

end Flags

/-! ## The whole flag set of each kind of byte -/

/-- Plain data sets no flag (R71). -/
@[simp] theorem classify_plain (c : Config) (d : Byte) : classify c false d = ClassifierFlags.none := rfl

/-- A byte with bit 6 set has no line-state flag: its flags are the four comparisons (R72 to R75). -/
theorem classify_of_definingBit (c : Config) {d : Byte} (bit6 : definingBit d = true) :
    classify c true d =
      ⟨decide (d = c.sentinelByte .start), decide (d = c.sentinelByte .ending), decide (d = c.sentinelByte .overflow),
        decide (d = c.sentinelByte .noaction), false, false, false⟩ := by
  simp only [classify, bit6, Bool.true_and, Bool.not_true, Bool.false_and, Bool.beq_eq_decide_eq]
  rfl

/-- A sentinel sets its own marker flag and no other (R72 to R75). -/
theorem classify_sentinelByte (c : AdmittedConfig) (k : Sentinel) :
    classify c.config true (c.config.sentinelByte k) =
      ⟨decide (k = .start), decide (k = .ending), decide (k = .overflow), decide (k = .noaction),
        false, false, false⟩ := by
  rw [classify_of_definingBit _ (sentinelByte_definingBit c k)]
  simp only [(sentinelByte_injective c).eq_iff]

/-- A line-state byte sets the flag of its code and no marker flag; code 2 has no flag (R76 to R79). -/
theorem classify_lineStateByte (c : AdmittedConfig) (code : BitVec 2) (top : BitVec 1) (low : BitVec 4) :
    classify c.config true (lineStateByte code top low) =
      ⟨false, false, false, false, decide (code = 1), decide (code = 0), decide (code = 3)⟩ := by
  have not_start : _ ≠ c.config.startByte := lineStateByte_ne_sentinel c code top low .start
  have not_end : _ ≠ c.config.endByte := lineStateByte_ne_sentinel c code top low .ending
  have not_ovf : _ ≠ c.config.overflowByte := lineStateByte_ne_sentinel c code top low .overflow
  have not_noaction : _ ≠ c.config.noactionByte := lineStateByte_ne_sentinel c code top low .noaction
  simp [classify, lineStateByte_fields, not_start, not_end, not_ovf, not_noaction, Bool.beq_eq_decide_eq]

/-! ## The statements of the family -/

/-- Settles O1: the two fields that R70's lines read are the numbers that R7 gives them. -/
theorem classifierFlagsAreTheirFormulas : Obligations.ClassifierFlagsAreTheirFormulas := by
  intro c cmd d
  have bit6 : (!definingBit d) = decide (d.toNat / 64 % 2 = 0) := by
    simp [← definingBit_eq_false_iff]
  have code (k : BitVec 2) : (lineStateCode d == k) = decide (d.toNat / 16 % 4 = k.toNat) := by
    rw [Bool.beq_eq_decide_eq, decide_eq_decide, lineStateCode_eq_iff]
  simp [classify, bit6, code, Bool.beq_eq_decide_eq]

/-- Settles O2. -/
theorem plainDataSetsNoFlag : Obligations.PlainDataSetsNoFlag := classify_plain

/-- Settles O3: the comparisons flag by flag, and the flag set of each sentinel. -/
theorem markerFlagsAreExactComparisons : Obligations.MarkerFlagsAreExactComparisons := by
  refine ⟨fun c cmd d => ?comparisons, fun c => ?noOther, ?examples⟩
  case comparisons =>
    exact ⟨isStartMarker_iff _ _ _, isEndMarker_iff _ _ _, isOvfMarker_iff _ _ _, isNoactionMarker_iff _ _ _⟩
  case noOther =>
    exact ⟨classify_sentinelByte c .start, classify_sentinelByte c .ending, classify_sentinelByte c .overflow,
      classify_sentinelByte c .noaction⟩
  case examples => decide

/-- Settles O4: each line-state flag is bit 6 clear and one code, and the 32 bytes of a code are its line-state bytes. -/
theorem lineStateFlagsReadThreeBits : Obligations.LineStateFlagsReadThreeBits := by
  intro c cmd d
  refine ⟨?active, ?inactive, ?error, fun top low => ?bytes⟩
  case active => rw [isActive_iff, lineStateCode_eq_iff]; rfl
  case inactive => rw [isInactive_iff, lineStateCode_eq_iff]; rfl
  case error => rw [isError_iff, lineStateCode_eq_iff]; rfl
  case bytes =>
    have fields (code : BitVec 2) : definingBit (top ++ (0#1 ++ code) ++ low) = false ∧
        lineStateCode (top ++ (0#1 ++ code) ++ low) = code := by
      rw [append_clear_bit_code]
      exact lineStateByte_fields code top low
    exact ⟨(isActive_iff _ _ _).2 ⟨rfl, fields 1⟩, (isInactive_iff _ _ _).2 ⟨rfl, fields 0⟩,
      (isError_iff _ _ _).2 ⟨rfl, fields 3⟩⟩

/-- Settles O5: code 2 is no flag's code, and a byte with bit 6 set has only the four comparisons left. -/
theorem reservedAndUnknownBytesSetNoFlag : Obligations.ReservedAndUnknownBytesSetNoFlag := by
  refine ⟨fun c top low => ?reserved, fun c d bit6 unknown => ?unknown⟩
  case reserved =>
    have byte : top ++ 0b010#3 ++ low = lineStateByte 2 top low := append_clear_bit_code 2 top low
    rw [byte]
    exact classify_lineStateByte c 2 top low
  case unknown =>
    rw [classify_of_definingBit _ bit6]
    simp only [unknown, decide_false, ClassifierFlags.none]

end Sys2Proof.Proofs.Classifier

namespace Sys2Proof.Proofs.FilterFsm

/-! SUPPORT. The packet boundary state machine (spec/41_filter_fsm.md). First the guards of the decision function and
that an item sets at most one flag; then the cycle of an instruction whose table cell emits and of one whose cell drops,
said once; then the class statements, each the cell of its class and the item of its instruction. -/

open Machine Safety Laws Classifier

/-! ## The decision function, guard by guard (R91) -/

section Guards
variable (st : FilterState) (f : ClassifierFlags)

/-- Plain data is decided before any flag is read. -/
theorem decideItem_plain : decideItem st false f = ⟨.emit .plainKind, st⟩ := rfl

/-- NOACTION is decided before the state is read. -/
theorem decideItem_noaction (noaction : f.isNoactionMarker = true) : decideItem st true f = ⟨.drop, st⟩ := by
  simp [decideItem, noaction]

theorem decideItem_closed (noaction : f.isNoactionMarker = false) :
    decideItem .packetClosed true f =
      if f.isStartMarker = true ∨ f.isActive = true then ⟨.emit .startKind, .packetOpen⟩
      else ⟨.drop, .packetClosed⟩ := by
  simp [decideItem, noaction]

theorem decideItem_open (noaction : f.isNoactionMarker = false) :
    decideItem .packetOpen true f =
      if f.isEndMarker = true ∨ f.isInactive = true then ⟨.emit .endKind, .packetClosed⟩
      else if f.isError = true then ⟨.emit .errKind, .packetClosed⟩
      else if f.isOvfMarker = true then ⟨.emit .ovfKind, .packetClosed⟩
      else ⟨.drop, .packetOpen⟩ := by
  simp [decideItem, noaction]

end Guards

/-! ## At most one flag (R91, R81) -/

/-- A byte with bit 6 clear is the line-state byte of its own fields (R55). -/
theorem lineStateByte_of_own_fields (d : Byte) (bit6 : definingBit d = false) :
    lineStateByte (lineStateCode d) (topBit d) (lowBits d) = d := by
  revert d
  decide

/-- An RxCmd byte is a sentinel, a line-state byte, or a byte with bit 6 set that is no sentinel. -/
theorem rxCmdByte_cases (c : Config) (d : Byte) :
    (∃ k, d = c.sentinelByte k) ∨ (∃ code top low, d = lineStateByte code top low) ∨
      (definingBit d = true ∧ ∀ k, d ≠ c.sentinelByte k) := by
  cases bit6 : definingBit d with
  | false => exact .inr (.inl ⟨_, _, _, (lineStateByte_of_own_fields d bit6).symm⟩)
  | true =>
    by_cases sentinel : ∃ k, d = c.sentinelByte k
    · exact .inl sentinel
    · exact .inr (.inr ⟨rfl, not_exists.1 sentinel⟩)

/-- No two flags of an item are set at once under an admitted configuration. -/
theorem classify_count_le_one (c : AdmittedConfig) (cmd : Bool) (d : Byte) :
    (classify c.config cmd d).toList.count true ≤ 1 := by
  cases cmd with
  | false => rw [classify_plain]; decide
  | true =>
    obtain ⟨k, rfl⟩ | ⟨code, top, low, rfl⟩ | ⟨bit6, unknown⟩ := rxCmdByte_cases c.config d
    · rw [classify_sentinelByte]
      cases k <;> decide
    · rw [classify_lineStateByte]
      revert code
      decide
    · rw [reservedAndUnknownBytesSetNoFlag.2 c d bit6 unknown]
      decide

/-! ## The cycle of an instruction, from its cell of the transition table -/

section Cycle
variable {i : Instr} {s : State} {r : RawSample} {k : EventKind} {st : FilterState}

/-- An instruction whose cell emits, at a ready consumer: its event is delivered and its item accepted. -/
theorem exec_emit_ready (item : encode s.cfg.config i = r)
    (cell : transitionTable i.itemClass s.state = ⟨.emit k, st⟩) (ready : s.pins.outReady = true) :
    exec i s = .next (afterCycle s (presentInputs r true) (eventOutputs true s.ctr r.data k) st
      ((s.ctr + 1) % 2 ^ s.cfg.config.tsWidth)) := by
  rw [exec_eq_finishCycle, item, cell, ready, finishCycle_emit_ready]

/-- An instruction whose cell drops: its item is accepted whatever the consumer does. -/
theorem exec_drop (item : encode s.cfg.config i = r) (cell : transitionTable i.itemClass s.state = ⟨.drop, st⟩) :
    exec i s = .next (afterCycle s (presentInputs r s.pins.outReady) (quietOutputs true s.ctr r.data) st
      ((s.ctr + 1) % 2 ^ s.cfg.config.tsWidth)) := by
  rw [exec_eq_finishCycle, item, cell, finishCycle_drop]

end Cycle

/-! ## The cells that keep the state -/

/-- R92: plain data is emitted in both states. -/
theorem transitionTable_plain (st : FilterState) : transitionTable .plain st = ⟨.emit .plainKind, st⟩ := by
  cases st <;> rfl

/-- R93, R100, R101: the three classes that are dropped in both states. -/
theorem transitionTable_ignored {k : ItemClass} (ignored : k = .cmdNoaction ∨ k = .lsReserved ∨ k = .cmdOther)
    (st : FilterState) : transitionTable k st = ⟨.drop, st⟩ := by
  obtain rfl | rfl | rfl := ignored <;> cases st <;> rfl

/-! ## The items of the line-state instructions (R55), bits 6, 5 and 4 written out -/

section LineStateItems
variable (c : Config) (top : BitVec 1) (low : BitVec 4)

theorem encode_lsInactive : encode c (.lsInactive top low) = ⟨true, top ++ 0b000#3 ++ low⟩ :=
  congrArg (RawSample.mk true) (append_clear_bit_code 0 top low).symm

theorem encode_lsActive : encode c (.lsActive top low) = ⟨true, top ++ 0b001#3 ++ low⟩ :=
  congrArg (RawSample.mk true) (append_clear_bit_code 1 top low).symm

theorem encode_lsReserved : encode c (.lsReserved top low) = ⟨true, top ++ 0b010#3 ++ low⟩ :=
  congrArg (RawSample.mk true) (append_clear_bit_code 2 top low).symm

end LineStateItems

/-! ## The statements of the family -/

/-- Settles O19: PLAIN's cell emits and keeps the state. -/
theorem plainIsForwarded : Obligations.PlainIsForwarded := fun s _ ready =>
  exec_emit_ready rfl (transitionTable_plain s.state) ready

/-- Settles O20: NOACTION's cell drops and keeps the state. -/
theorem noactionIsDropped : Obligations.NoactionIsDropped := fun s =>
  exec_drop rfl (transitionTable_ignored (.inl rfl) s.state)

/-- Settles O22: LS_ACTIVE's cell emits START when closed and drops when open. -/
theorem activeLineStateOpensPacket : Obligations.ActiveLineStateOpensPacket := by
  intro s top low
  refine ⟨fun closed ready => ?opens, fun isOpen => ?spurious⟩
  case opens => exact exec_emit_ready (encode_lsActive _ top low) (by rw [closed]; rfl) ready
  case spurious => exact exec_drop (encode_lsActive _ top low) (by rw [isOpen]; rfl)

/-- Settles O24: LS_INACTIVE's cell emits END when open and drops when closed. -/
theorem inactiveLineStateClosesPacket : Obligations.InactiveLineStateClosesPacket := by
  intro s top low
  refine ⟨fun isOpen ready => ?closes, fun closed => ?spurious⟩
  case closes => exact exec_emit_ready (encode_lsInactive _ top low) (by rw [isOpen]; rfl) ready
  case spurious => exact exec_drop (encode_lsInactive _ top low) (by rw [closed]; rfl)

/-- Settles O27: LS_RESERVED's cell drops and keeps the state. -/
theorem reservedLineStateIsDropped : Obligations.ReservedLineStateIsDropped := fun s top low =>
  exec_drop (encode_lsReserved _ top low) (transitionTable_ignored (.inr (.inl rfl)) s.state)

/-- Settles O28: CMD_OTHER's cell drops and keeps the state. -/
theorem unknownCommandIsDropped : Obligations.UnknownCommandIsDropped := fun s _ _ =>
  exec_drop rfl (transitionTable_ignored (.inr (.inr rfl)) s.state)

/-- Settles O29: the four guards, and the flag count of each kind of byte. -/
theorem decisionFunctionGuards : Obligations.DecisionFunctionGuards :=
  ⟨decideItem_plain, decideItem_noaction, decideItem_closed, decideItem_open, classify_count_le_one⟩

end Sys2Proof.Proofs.FilterFsm

namespace Sys2Proof.Proofs.HandshakeTimestamp

/-! SUPPORT. Handshake and timestamp (spec/42_handshake_timestamp.md). First that every step is one whole cycle on the
pins; then what a delivered event says of that cycle; then the counter statements, read off `nextCtr` (R115). -/

open Machine Safety Laws FilterFsm

/-! ## Every step is one whole cycle on the pins (R9, R145) -/

/-- An item cycle: the cycle on the pins with the decision of the presented item's cell. -/
theorem step_item (s : State) (running : s.pins.rst = false) (valid : s.pins.inValid = true) :
    step s = .next (finishCycle s.pins
      (transitionTable (decode s.cfg.config s.pins.item).itemClass s.state) s) := by
  have is_item : step s = exec (decode s.cfg.config s.pins.item) s := by simp [step, fetch, running, valid]
  rw [is_item, exec_eq_finishCycle, encode_decode, presentInputs_item_self _ running valid]

/-- Whatever the cycle is, it is taken on the pins under some decision, and its record is that decision's outputs. -/
theorem exists_cycleTaken (s : State) :
    ∃ d, CycleTaken s ⟨s.pins, outputsOf s.ctr s.pins d.action⟩ (finishCycle s.pins d s) := by
  obtain ⟨-, reset⟩ | ⟨-, -, idle⟩ | ⟨running, valid, -⟩ := step_cases s
  · exact ⟨_, reset, rfl, rfl⟩
  · exact ⟨_, idle, rfl, rfl⟩
  · exact ⟨_, step_item s running valid, rfl, rfl⟩

/-! ## Delivered events (R113, R114) -/

section Delivery
variable {p : Inputs} {a : Action}

/-- An event is presented exactly when an item is presented outside reset whose decision is to emit (R110). -/
theorem outValidOf_iff : outValidOf p a = true ↔ p.rst = false ∧ p.inValid = true ∧ ∃ k, a = .emit k := by
  cases a <;> simp [outValidOf]

/-- Outside reset, the item whose event a ready consumer takes is accepted (R111, R113). -/
theorem acceptOf_emit_ready {k : EventKind} (running : p.rst = false) (valid : p.inValid = true)
    (ready : p.outReady = true) : acceptOf p (.emit k) = true := by
  simp [acceptOf, inReadyOf, running, valid, ready]

/-- A delivered event carries the counter the cycle shows, and its cycle accepts an item outside reset. -/
theorem delivered_timestamp_and_accept {ctr : Nat} {e : PacketEvent}
    (delivered : PortCycle.deliveredEvent ⟨p, outputsOf ctr p a⟩ = some e) :
    e.timestamp = ctr ∧ p.rst = false ∧ acceptOf p a = true := by
  simp only [PortCycle.deliveredEvent, outputsOf_outValid, Option.ite_none_right_eq_some, Option.some.injEq,
    Bool.and_eq_true] at delivered
  obtain ⟨⟨presented, ready⟩, rfl⟩ := delivered
  obtain ⟨running, valid, k, rfl⟩ := outValidOf_iff.1 presented
  exact ⟨rfl, running, acceptOf_emit_ready running valid ready⟩

end Delivery

/-! ## The counter (R115, R118) -/

section Counter
variable (n ctr : Nat) {p : Inputs} {a : Action}

/-- R115's three branches, with the acceptance of R113 and the arithmetic of R118 written out. -/
theorem nextCtr_eq_ite : nextCtr n ctr p a =
    if p.rst then 0 else if p.inValid && inReadyOf p a then (ctr + 1) % 2 ^ n else ctr := rfl

/-- Acceptance outside reset advances the counter. -/
theorem nextCtr_accept (running : p.rst = false) (accepted : acceptOf p a = true) :
    nextCtr n ctr p a = (ctr + 1) % 2 ^ n := by
  simp only [nextCtr, running, accepted, Bool.false_eq_true, if_false, if_true, advanceCtr]

end Counter

/-! ## The statements of the family -/

/-- Settles O39: the counter left behind is `nextCtr`'s, and the recorded cycle shows the `in_ready` it reads. -/
theorem counterUpdateRule : Obligations.CounterUpdateRule := by
  intro s
  obtain ⟨d, taken⟩ := exists_cycleTaken s
  exact ⟨_, _, taken, (finishCycle_ctr s.pins d s).trans (nextCtr_eq_ite _ _)⟩

/-- Settles O42: a delivered event's cycle accepts its item, so the edge that ends it advances the counter the event
carries; in the example the item is PLAIN and its cell emits in both states. -/
theorem timestampIsSampledBeforeIncrement : Obligations.TimestampIsSampledBeforeIncrement := by
  refine ⟨fun s => ?anyEvent, fun s zero pins => ?ruleExample⟩
  case anyEvent =>
    obtain ⟨d, taken⟩ := exists_cycleTaken s
    refine ⟨_, _, taken, fun e delivered => ?_⟩
    obtain ⟨timestamp, running, accepted⟩ := delivered_timestamp_and_accept delivered
    exact ⟨timestamp, nextCtr_accept _ _ running accepted⟩
  case ruleExample =>
    have forwarded : step s = .next (afterCycle s s.pins (eventOutputs true 0 0x55 .plainKind) s.state 1) := by
      have cell : transitionTable (decode s.cfg.config ⟨false, 0x55⟩).itemClass s.state =
          ⟨.emit .plainKind, s.state⟩ := transitionTable_plain s.state
      have width_pos : 0 < s.cfg.config.tsWidth := s.cfg.ok.1
      rw [step_item s (by rw [pins]; rfl) (by rw [pins]; rfl), pins, presentInputs_item, cell, finishCycle_emit_ready,
        zero, zero_add, Nat.one_mod_two_pow width_pos]
    exact ⟨_, _, ⟨forwarded, rfl, rfl⟩, by rw [pins]; rfl, rfl⟩

end Sys2Proof.Proofs.HandshakeTimestamp

namespace Sys2Proof.Proofs.Encoding

/-! SUPPORT. Items, instructions and words (spec/30_encoding.md, spec/40_classifier.md R81, R82). First packing and
unpacking; then what encoding an instruction and decoding an item do to each other; then the flag set and the decision
of each class; then the rows of the class map, each read as a condition on the item, and how many of the 512 words each
class has. Every item is the encoding of a well-formed instruction, so a fact about all items is proved by cases on the
instruction. -/

open Machine Safety Laws Classifier FilterFsm

/-! ## The packed word (R51) -/

/-- R51's number `is_cmd * 0x100 + data`. -/
theorem packSample_toNat (r : RawSample) : (packSample r).toNat = (if r.isCmd then 256 else 0) + r.data.toNat := by
  have fields : (packSample r).toNat = 2 ^ 8 * (BitVec.ofBool r.isCmd).toNat + r.data.toNat := by
    rw [Nat.two_pow_add_eq_or_of_lt r.data.isLt, mul_comm, ← Nat.shiftLeft_eq]
    exact BitVec.toNat_append ..
  rw [fields]
  cases r.isCmd <;> rfl

@[simp] theorem unpackWord_packSample (r : RawSample) : unpackWord (packSample r) = r := by
  have flag : (packSample r).getLsbD 8 = r.isCmd := by
    refine (BitVec.getLsbD_append (x := BitVec.ofBool r.isCmd) (y := r.data)).trans ?_
    simp
  have data : (packSample r).extractLsb' 0 8 = r.data := BitVec.extractLsb'_append_eq_right
  simp only [unpackWord, flag, data]

@[simp] theorem packSample_unpackWord (w : ItemWord) : packSample (unpackWord w) = w := by
  have flag : w.getLsbD 8 = decide (w.toNat / 256 % 2 = 1) := by
    simp [BitVec.getLsbD, Nat.testBit_eq_decide_div_mod_eq]
  have bound : w.toNat < 512 := w.isLt
  rw [← BitVec.toNat_inj, packSample_toNat]
  simp only [unpackWord, flag, decide_eq_true_eq, BitVec.extractLsb'_toNat, Nat.shiftRight_zero]
  split_ifs <;> omega

/-- Every 9-bit word decodes: no number below 512 is refused (R58). -/
@[simp] theorem decodeWord_toNat (c : Config) (w : ItemWord) :
    decodeWord c w.toNat = .ok (decode c (unpackWord w)) := by
  have bound : w.toNat < 512 := w.isLt
  simp [decodeWord, bound]

/-! ## Instructions and their items (R55, R56) -/

/-- The class of a well-formed instruction's item is the instruction's own (R82). -/
theorem classOf_encode (c : AdmittedConfig) (i : Instr) (wf : wellFormed c.config i = true) :
    classOf c.config (encode c.config i) = i.itemClass := by
  cases i with
  | plain d => exact EncodedClass.plain d c wf
  | cmdNoaction => exact EncodedClass.cmdNoaction c wf
  | cmdStart => exact EncodedClass.cmdStart c wf
  | cmdEnd => exact EncodedClass.cmdEnd c wf
  | cmdOvf => exact EncodedClass.cmdOvf c wf
  | lsInactive top low => exact EncodedClass.lsInactive top low c wf
  | lsActive top low => exact EncodedClass.lsActive top low c wf
  | lsReserved top low => exact EncodedClass.lsReserved top low c wf
  | lsError top low => exact EncodedClass.lsError top low c wf
  | cmdOther d => exact EncodedClass.cmdOther d c wf

/-- A line-state byte keeps its don't-care bits (R55). -/
theorem lineStateByte_dontCare (code : BitVec 2) (top : BitVec 1) (low : BitVec 4) :
    topBit (lineStateByte code top low) = top ∧ lowBits (lineStateByte code top low) = low := by
  revert code top low
  decide

/-- The operands of an instruction are read back from the byte of its item. -/
theorem instrOf_encode (c : Config) (i : Instr) : instrOf i.itemClass (encode c i).data = i := by
  cases i <;> simp [instrOf, Instr.itemClass, encode, lineStateByte_dontCare]

@[simp] theorem itemClass_instrOf (k : ItemClass) (d : Byte) : (instrOf k d).itemClass = k := by
  cases k <;> rfl

@[simp] theorem itemClass_decode (c : Config) (r : RawSample) : (decode c r).itemClass = classOf c r :=
  itemClass_instrOf _ _

/-- Decoding is left inverse to encoding: the class is the instruction's, and the byte holds its operands. -/
theorem decode_encode (c : AdmittedConfig) (i : Instr) (wf : wellFormed c.config i = true) :
    decode c.config (encode c.config i) = i := by
  rw [decode, classOf_encode c i wf, instrOf_encode]

/-- No item decodes to an ill-formed instruction: the tests before CMD_OTHER's leave it only the bytes of its row. -/
theorem wellFormed_decode (c : Config) (r : RawSample) : wellFormed c (decode c r) = true := by
  have code_cases : ∀ code : BitVec 2, code = 0 ∨ code = 1 ∨ code = 2 ∨ code = 3 := by decide
  unfold decode
  cases class_eq : classOf c r
  case cmdOther =>
    unfold classOf at class_eq
    split_ifs at class_eq with _ noaction start ending overflow inactive active reserved error
    have bit6 : definingBit r.data = true := by
      refine eq_true_of_ne_false fun clear => ?_
      obtain code | code | code | code := code_cases (lineStateCode r.data)
      · exact inactive ⟨clear, code⟩
      · exact active ⟨clear, code⟩
      · exact reserved ⟨clear, code⟩
      · exact error ⟨clear, code⟩
    simp [instrOf, wellFormed, bit6, noaction, start, ending, overflow]
  all_goals rfl

/-! ## The flag set and the decision of a class (R81, R105) -/

/-- The flag set of each class (R81). -/
def classFlags : ItemClass → ClassifierFlags
  | .cmdNoaction => { ClassifierFlags.none with isNoactionMarker := true }
  | .cmdStart => { ClassifierFlags.none with isStartMarker := true }
  | .cmdEnd => { ClassifierFlags.none with isEndMarker := true }
  | .cmdOvf => { ClassifierFlags.none with isOvfMarker := true }
  | .lsInactive => { ClassifierFlags.none with isInactive := true }
  | .lsActive => { ClassifierFlags.none with isActive := true }
  | .lsError => { ClassifierFlags.none with isError := true }
  | .plain | .lsReserved | .cmdOther => ClassifierFlags.none

/-- The flag set of a well-formed instruction's item is the one of its class. -/
theorem classify_encode (c : AdmittedConfig) (i : Instr) (wf : wellFormed c.config i = true) :
    classify c.config (encode c.config i).isCmd (encode c.config i).data = classFlags i.itemClass := by
  cases i with
  | plain d => exact classify_plain _ d
  | cmdNoaction => exact classify_sentinelByte c .noaction
  | cmdStart => exact classify_sentinelByte c .start
  | cmdEnd => exact classify_sentinelByte c .ending
  | cmdOvf => exact classify_sentinelByte c .overflow
  | lsInactive top low => exact classify_lineStateByte c 0 top low
  | lsActive top low => exact classify_lineStateByte c 1 top low
  | lsReserved top low => exact classify_lineStateByte c 2 top low
  | lsError top low => exact classify_lineStateByte c 3 top low
  | cmdOther d =>
    simp only [wellFormed, Bool.and_eq_true, bne_iff_ne] at wf
    obtain ⟨⟨⟨⟨bit6, noaction⟩, start⟩, ending⟩, overflow⟩ := wf
    exact reservedAndUnknownBytesSetNoFlag.2 c d bit6 fun k => by cases k <;> assumption

/-- The flag set of every item is the one of its class. -/
theorem classify_eq_classFlags (c : AdmittedConfig) (r : RawSample) :
    classify c.config r.isCmd r.data = classFlags (classOf c.config r) := by
  have own := classify_encode c _ (wellFormed_decode c.config r)
  rwa [encode_decode, itemClass_decode] at own

/-- Only PLAIN's items have `is_cmd` clear. -/
theorem encode_isCmd (c : Config) (i : Instr) : (encode c i).isCmd = (i.itemClass != .plain) := by
  cases i <;> rfl

/-- The decision function on the flags of a class is the class's row of the transition table. -/
theorem decideItem_classFlags (k : ItemClass) (st : FilterState) :
    decideItem st (k != .plain) (classFlags k) = transitionTable k st := by
  cases k <;> cases st <;> rfl

/-- The decision function on an item's flags is the cell of the item's class (R105). -/
theorem decideItem_classify (c : AdmittedConfig) (r : RawSample) (st : FilterState) :
    decideItem st r.isCmd (classify c.config r.isCmd r.data) = transitionTable (classOf c.config r) st := by
  have cmd := encode_isCmd c.config (decode c.config r)
  rw [encode_decode, itemClass_decode] at cmd
  rw [classify_eq_classFlags, cmd, decideItem_classFlags]

/-! ## The rows of the class map (R56, R57) -/

/-- What a row of the class map asks of an item. CMD_OTHER's row asks less than its class: it matches the sentinels
too. -/
def rowHolds (c : Config) (r : RawSample) : ItemClass → Bool
  | .plain => !r.isCmd
  | .cmdNoaction => r.isCmd && r.data == c.noactionByte
  | .cmdStart => r.isCmd && r.data == c.startByte
  | .cmdEnd => r.isCmd && r.data == c.endByte
  | .cmdOvf => r.isCmd && r.data == c.overflowByte
  | .lsInactive => r.isCmd && !definingBit r.data && lineStateCode r.data == 0
  | .lsActive => r.isCmd && !definingBit r.data && lineStateCode r.data == 1
  | .lsReserved => r.isCmd && !definingBit r.data && lineStateCode r.data == 2
  | .lsError => r.isCmd && !definingBit r.data && lineStateCode r.data == 3
  | .cmdOther => r.isCmd && definingBit r.data

/-- A sentinel row masks no bit away, so it matches one word. -/
theorem sentinelRow_matches (k : ItemClass) (b : Byte) (r : RawSample) :
    (ClassRow.mk k 0x1FF (sentinelMatch b)).matchesWord (packSample r) = (r.isCmd && r.data == b) := by
  have full_mask : packSample r &&& 0x1FF = packSample r := BitVec.and_allOnes
  have same_word : packSample r = sentinelMatch b ↔ r = ⟨true, b⟩ :=
    ⟨fun h => by rw [← unpackWord_packSample r, h]; exact unpackWord_packSample ⟨true, b⟩, fun h => h ▸ rfl⟩
  obtain ⟨cmd, d⟩ := r
  rw [ClassRow.matchesWord, full_mask, Bool.eq_iff_iff, beq_iff_eq, same_word]
  simp

/-- A line-state row reads bits 8, 6, 5 and 4 of the word. -/
theorem lineStateRow_matches (k : ItemClass) (code : BitVec 2) (r : RawSample) :
    (ClassRow.mk k 0x170 (packSample ⟨true, lineStateByte code 0 0⟩)).matchesWord (packSample r) =
      (r.isCmd && !definingBit r.data && lineStateCode r.data == code) := by
  obtain ⟨cmd, d⟩ := r
  change (packSample ⟨cmd, d⟩ &&& 0x170 == packSample ⟨true, lineStateByte code 0 0⟩) =
    (cmd && !definingBit d && lineStateCode d == code)
  revert code cmd d
  decide

/-- PLAIN's row reads bit 8. -/
theorem plainRow_matches (r : RawSample) : (ClassRow.mk .plain 0x100 0).matchesWord (packSample r) = !r.isCmd := by
  obtain ⟨cmd, d⟩ := r
  revert cmd d
  decide

/-- CMD_OTHER's row reads bits 8 and 6. -/
theorem otherRow_matches (r : RawSample) :
    (ClassRow.mk .cmdOther 0x140 0x140).matchesWord (packSample r) = (r.isCmd && definingBit r.data) := by
  obtain ⟨cmd, d⟩ := r
  revert cmd d
  decide

/-- Each row of the class map, its mask and match value, is its condition on the item. -/
theorem matchesWord_packSample {c : Config} {row : ClassRow} (mem : row ∈ classRows c) (r : RawSample) :
    row.matchesWord (packSample r) = rowHolds c r row.itemClass := by
  simp only [classRows, List.mem_cons, List.not_mem_nil, or_false] at mem
  obtain rfl | rfl | rfl | rfl | rfl | rfl | rfl | rfl | rfl | rfl := mem
  · exact plainRow_matches r
  · exact sentinelRow_matches _ _ r
  · exact sentinelRow_matches _ _ r
  · exact sentinelRow_matches _ _ r
  · exact sentinelRow_matches _ _ r
  · exact lineStateRow_matches _ 0 r
  · exact lineStateRow_matches _ 1 r
  · exact lineStateRow_matches _ 2 r
  · exact lineStateRow_matches _ 3 r
  · exact otherRow_matches r

/-- The row of an instruction's class holds of its item. -/
theorem rowHolds_encode (c : Config) (i : Instr) (wf : wellFormed c i = true) :
    rowHolds c (encode c i) i.itemClass = true := by
  cases i with
  | cmdOther d =>
    simp only [wellFormed, Bool.and_eq_true] at wf
    simp [rowHolds, encode, Instr.itemClass, wf]
  | _ => simp [rowHolds, encode, Instr.itemClass, lineStateByte_fields]

/-- The row of its class holds of every item. -/
theorem rowHolds_classOf (c : Config) (r : RawSample) : rowHolds c r (classOf c r) = true := by
  have own := rowHolds_encode c _ (wellFormed_decode c r)
  rwa [encode_decode, itemClass_decode] at own

/-- An item that meets the row of a class is the encoding of that class's instruction with the item's byte. -/
theorem encode_instrOf {c : Config} {r : RawSample} {k : ItemClass} (holds : rowHolds c r k = true) :
    encode c (instrOf k r.data) = r := by
  obtain ⟨cmd, d⟩ := r
  have byte (code : BitVec 2) (bit6 : definingBit d = false) (own : lineStateCode d = code) :
      lineStateByte code (topBit d) (lowBits d) = d := own ▸ lineStateByte_of_own_fields d bit6
  cases k <;> simp_all [rowHolds, encode, instrOf]

/-- Under an admitted configuration a row other than CMD_OTHER's holds of the items of its class alone. -/
theorem classOf_of_rowHolds (c : AdmittedConfig) {r : RawSample} {k : ItemClass} (not_other : k ≠ .cmdOther)
    (holds : rowHolds c.config r k = true) : classOf c.config r = k := by
  have wf : wellFormed c.config (instrOf k r.data) = true := by
    cases k with
    | cmdOther => exact absurd rfl not_other
    | _ => rfl
  have own := classOf_encode c _ wf
  rwa [encode_instrOf holds, itemClass_instrOf] at own

/-- The classes of the rows before CMD_OTHER's, in their order. -/
def rowsBeforeOther : List ItemClass :=
  [.plain, .cmdNoaction, .cmdStart, .cmdEnd, .cmdOvf, .lsInactive, .lsActive, .lsReserved, .lsError]

/-- CMD_OTHER's row is the last and every class has a row. -/
theorem mem_rowsBeforeOther_iff (k : ItemClass) : k ∈ rowsBeforeOther ↔ k ≠ .cmdOther := by
  cases k <;> decide

/-- The first matching row gives the class function's answer: a row before CMD_OTHER's holds of its own class alone, and
where all of these fail the class is CMD_OTHER, whose row holds. -/
theorem firstMatch_packSample (c : AdmittedConfig) (r : RawSample) :
    firstMatch c.config (packSample r) = some (classOf c.config r) := by
  have by_class : firstMatch c.config (packSample r) =
      (rowsBeforeOther ++ [ItemClass.cmdOther]).find? (rowHolds c.config r) := by
    have rows : (classRows c.config).map ClassRow.itemClass = rowsBeforeOther ++ [ItemClass.cmdOther] := rfl
    rw [firstMatch, ← rows, List.find?_map]
    exact congrArg _ (List.find?_congr fun row mem => matchesWord_packSample mem r)
  have own := rowHolds_classOf c.config r
  rw [by_class, List.find?_append]
  cases first : rowsBeforeOther.find? (rowHolds c.config r) with
  | some k =>
    have not_other := (mem_rowsBeforeOther_iff k).1 (List.mem_of_find?_eq_some first)
    rw [classOf_of_rowHolds c not_other (List.find?_some first)]
    rfl
  | none =>
    have other : classOf c.config r = .cmdOther := by
      by_contra not_other
      exact List.find?_eq_none.1 first _ ((mem_rowsBeforeOther_iff _).2 not_other) own
    rw [other] at own ⊢
    simp [own]

/-- A row that shares a word with CMD_OTHER's is a sentinel row: the others ask for bit 8 or bit 6 clear. -/
theorem sentinel_of_rowHolds_cmdOther {c : Config} {r : RawSample} {k : ItemClass} (not_other : k ≠ .cmdOther)
    (other : rowHolds c r .cmdOther = true) (holds : rowHolds c r k = true) :
    k ∈ [ItemClass.cmdNoaction, .cmdStart, .cmdEnd, .cmdOvf] := by
  obtain ⟨cmd, bit6⟩ : r.isCmd = true ∧ definingBit r.data = true := by simpa [rowHolds] using other
  cases k with
  | cmdNoaction | cmdStart | cmdEnd | cmdOvf => decide
  | cmdOther => exact absurd rfl not_other
  | _ => simp [rowHolds, cmd, bit6] at holds

/-! ## How many words each class has (R56) -/

/-- There are `2 ^ n` words of `n` bits. -/
theorem card_bitVec (n : Nat) : Fintype.card (BitVec n) = 2 ^ n :=
  (Fintype.card_congr BitVec.equivFin.toEquiv).trans (Fintype.card_fin _)

/-- How many of the 512 words are of class `k` (R56). -/
def wordCount (c : Config) (k : ItemClass) : Nat :=
  (List.range 512).countP fun n => classOf c (unpackWord (BitVec.ofNat 9 n)) == k

/-- The numbers of a class's words, as a set. -/
theorem wordCount_eq_card (c : Config) (k : ItemClass) :
    wordCount c k = ((Finset.range 512).filter fun n => classOf c (unpackWord (BitVec.ofNat 9 n)) = k).card := by
  have list_as_set (p : Nat → Prop) [DecidablePred p] (n : Nat) :
      (List.range n).countP (fun m => decide (p m)) = ((Finset.range n).filter p).card :=
    List.countP_eq_length_filter
  simp only [wordCount, beq_eq_decide]
  exact list_as_set _ _

/-- Only terms of class CMD_OTHER can be ill-formed. -/
theorem wellFormed_of_itemClass (c : Config) {i : Instr} (not_other : i.itemClass ≠ .cmdOther) :
    wellFormed c i = true := by
  cases i with
  | cmdOther d => exact absurd rfl not_other
  | _ => rfl

/-- The words of a class are counted by the operands of its instruction, because encoding and decoding are inverse to
each other. -/
theorem wordCount_eq_card_operand (c : AdmittedConfig) {k : ItemClass} (not_other : k ≠ .cmdOther) {Operand : Type}
    [Fintype Operand] (instr : Operand → Instr) (injective : Function.Injective instr)
    (class_eq : ∀ a, (instr a).itemClass = k) (covers : ∀ d, ∃ a, instr a = instrOf k d) :
    wordCount c.config k = Fintype.card Operand := by
  have wf (a : Operand) : wellFormed c.config (instr a) = true :=
    wellFormed_of_itemClass _ (by rwa [class_eq])
  rw [wordCount_eq_card]
  refine (Finset.card_bij (fun a _ => (encodeWord c.config (instr a)).toNat) ?range ?injective ?surjective).symm
  case range =>
    intro a _
    have bound : (encodeWord c.config (instr a)).toNat < 512 := BitVec.isLt _
    have own : classOf c.config (unpackWord (encodeWord c.config (instr a))) = k := by
      rw [encodeWord, unpackWord_packSample, classOf_encode c _ (wf a), class_eq]
    simp [bound, own]
  case injective =>
    intro a _ b _ same_number
    have same_item : encode c.config (instr a) = encode c.config (instr b) := by
      simpa [encodeWord] using congrArg unpackWord (BitVec.eq_of_toNat_eq same_number)
    apply injective
    rw [← decode_encode c _ (wf a), same_item, decode_encode c _ (wf b)]
  case surjective =>
    intro n mem
    obtain ⟨bound, own⟩ : n < 512 ∧ classOf c.config (unpackWord (BitVec.ofNat 9 n)) = k := by simpa using mem
    obtain ⟨a, instr_a⟩ := covers (unpackWord (BitVec.ofNat 9 n)).data
    refine ⟨a, Finset.mem_univ a, ?_⟩
    rw [instr_a, ← own, ← decode, encodeWord, encode_decode, packSample_unpackWord, BitVec.toNat_ofNat,
      Nat.mod_eq_of_lt bound]

/-- A class whose instruction has no operand has one word. -/
theorem wordCount_sentinel (c : AdmittedConfig) {k : ItemClass} (not_other : k ≠ .cmdOther)
    (no_operand : ∀ d, instrOf k 0 = instrOf k d) : wordCount c.config k = 1 :=
  wordCount_eq_card_operand c not_other (fun _ : Unit => instrOf k 0) (fun _ _ _ => rfl)
    (fun _ => itemClass_instrOf k 0) (fun d => ⟨(), no_operand d⟩)

/-- A line-state class has one word for each value of its don't-care bits. -/
theorem wordCount_lineState (c : AdmittedConfig) {k : ItemClass} (not_other : k ≠ .cmdOther)
    (instr : BitVec 1 → BitVec 4 → Instr)
    (injective : ∀ top low top' low', instr top low = instr top' low' → top = top' ∧ low = low')
    (class_eq : ∀ top low, (instr top low).itemClass = k)
    (fields : ∀ d, instr (topBit d) (lowBits d) = instrOf k d) : wordCount c.config k = 32 := by
  have by_operands := wordCount_eq_card_operand c not_other (fun bits : BitVec 1 × BitVec 4 => instr bits.1 bits.2)
    (fun _ _ same => Prod.ext_iff.2 (injective _ _ _ _ same)) (fun _ => class_eq _ _)
    (fun d => ⟨(topBit d, lowBits d), fields d⟩)
  rw [by_operands, Fintype.card_prod, card_bitVec, card_bitVec]
  rfl

/-- The counts of all classes add up to the number of words. -/
theorem sum_wordCount (c : Config) :
    wordCount c .cmdOther + ∑ k ∈ rowsBeforeOther.toFinset, wordCount c k = 512 := by
  have as_count (k : ItemClass) : wordCount c k =
      Multiset.count k ((List.range 512).map fun n => classOf c (unpackWord (BitVec.ofNat 9 n)) : List ItemClass) := by
    rw [Multiset.coe_count, List.count, List.countP_map]
    rfl
  have every_class (k : ItemClass) : k ∈ insert .cmdOther rowsBeforeOther.toFinset := by cases k <;> decide
  rw [← Finset.sum_insert (f := wordCount c) (by decide), Finset.sum_congr rfl fun k _ => as_count k,
    Multiset.sum_count_eq_card fun k _ => every_class k, Multiset.coe_card, List.length_map, List.length_range]

/-- The counts of R56. -/
def expectedCount : ItemClass → Nat
  | .plain => 256
  | .cmdNoaction | .cmdStart | .cmdEnd | .cmdOvf => 1
  | .lsInactive | .lsActive | .lsReserved | .lsError => 32
  | .cmdOther => 124

/-- Below CMD_OTHER a class has as many words as its instruction has operands. -/
theorem wordCount_before_other (c : AdmittedConfig) {k : ItemClass} (not_other : k ≠ .cmdOther) :
    wordCount c.config k = expectedCount k := by
  cases k with
  | plain =>
    exact (wordCount_eq_card_operand c not_other Instr.plain (fun _ _ => Instr.plain.inj) (fun _ => rfl)
      (fun d => ⟨d, rfl⟩)).trans (card_bitVec 8)
  | cmdNoaction | cmdStart | cmdEnd | cmdOvf => exact wordCount_sentinel c not_other fun _ => rfl
  | lsInactive =>
    exact wordCount_lineState c not_other _ (fun _ _ _ _ => Instr.lsInactive.inj) (fun _ _ => rfl) (fun _ => rfl)
  | lsActive =>
    exact wordCount_lineState c not_other _ (fun _ _ _ _ => Instr.lsActive.inj) (fun _ _ => rfl) (fun _ => rfl)
  | lsReserved =>
    exact wordCount_lineState c not_other _ (fun _ _ _ _ => Instr.lsReserved.inj) (fun _ _ => rfl) (fun _ => rfl)
  | lsError =>
    exact wordCount_lineState c not_other _ (fun _ _ _ _ => Instr.lsError.inj) (fun _ _ => rfl) (fun _ => rfl)
  | cmdOther => exact absurd rfl not_other

/-! ## The statements -/

/-- Settles O9: as an item by the class and the operands, as a word by unpacking. -/
theorem decodeOfEncodeIsTheInstruction : Obligations.DecodeOfEncodeIsTheInstruction := by
  intro c i wf
  have as_item := decode_encode c i wf
  exact ⟨as_item, by rw [decodeWord_toNat, encodeWord, unpackWord_packSample, as_item]⟩

/-- Settles O6: the item is the encoding of what it decodes to, whose flag set is that of its class. -/
theorem flagSetIsTheOneOfTheClass : Obligations.FlagSetIsTheOneOfTheClass := by
  intro c r
  rw [classify_eq_classFlags]
  cases classOf c.config r <;> rfl

/-- Settles O7: below CMD_OTHER two rows that match one word have the word's class both, and what CMD_OTHER shares are
sentinels. -/
theorem classRowsAreDisjointAndTotal : Obligations.ClassRowsAreDisjointAndTotal := by
  intro c w
  obtain ⟨r, rfl⟩ : ∃ r, w = packSample r := ⟨_, (packSample_unpackWord w).symm⟩
  refine ⟨by rw [firstMatch_packSample, unpackWord_packSample], fun a ha b hb matches_a matches_b differ => ?_⟩
  rw [matchesWord_packSample ha] at matches_a
  rw [matchesWord_packSample hb] at matches_b
  by_cases a_other : a.itemClass = .cmdOther
  · rw [a_other] at matches_a differ
    exact .inl ⟨a_other, sentinel_of_rowHolds_cmdOther differ.symm matches_a matches_b⟩
  by_cases b_other : b.itemClass = .cmdOther
  · rw [b_other] at matches_b
    exact .inr ⟨b_other, sentinel_of_rowHolds_cmdOther a_other matches_b matches_a⟩
  have class_a := classOf_of_rowHolds c a_other matches_a
  have class_b := classOf_of_rowHolds c b_other matches_b
  exact absurd (class_a.symm.trans class_b) differ

/-- Settles O8: below CMD_OTHER by counting operands, and CMD_OTHER has the words that are left. -/
theorem classWordCounts : Obligations.ClassWordCounts := by
  intro c k
  have counts : wordCount c.config k = expectedCount k := by
    by_cases other : k = .cmdOther
    · subst other
      have total := sum_wordCount c.config
      rw [Finset.sum_congr rfl fun k mem => wordCount_before_other c
        ((mem_rowsBeforeOther_iff k).1 (List.mem_toFinset.1 mem))] at total
      have others : ∑ k ∈ rowsBeforeOther.toFinset, expectedCount k = 388 := by decide
      rw [others] at total
      exact Nat.add_right_cancel total
    · exact wordCount_before_other c other
  cases k <;> exact counts

/-- Settles O10: the instruction is what the unpacked item decodes to. -/
theorem everyWordIsAnEncoding : Obligations.EveryWordIsAnEncoding := fun c w =>
  ⟨decode c.config (unpackWord w), decodeWord_toNat _ _, wellFormed_decode _ _,
    by rw [encodeWord, encode_decode, packSample_unpackWord]⟩

/-- Settles O13: each field is one part of the two appends; the nibbles are computed. -/
theorem packedEventFieldsReadBack : Obligations.PackedEventFieldsReadBack := by
  refine ⟨fun n e in_range => ⟨?timestamp, ?data, ?flags⟩, ?nibbles⟩
  case timestamp =>
    have above_flags : (packEvent n e).extractLsb' 12 n = (BitVec.ofNat n e.timestamp ++ e.data).extractLsb' 8 n :=
      BitVec.extractLsb'_append_eq_of_le (by decide)
    rw [above_flags, BitVec.extractLsb'_append_eq_left, BitVec.toNat_ofNat, Nat.mod_eq_of_lt in_range]
  case data =>
    have above_flags : (packEvent n e).extractLsb' 4 8 = (BitVec.ofNat n e.timestamp ++ e.data).extractLsb' 0 8 :=
      BitVec.extractLsb'_append_eq_of_le (by decide)
    rw [above_flags, BitVec.extractLsb'_append_eq_right]
  case flags => exact BitVec.extractLsb'_append_eq_right
  case nibbles => decide

/-- Settles O11: ten words, computed. -/
theorem writtenOutWordsDecode : Obligations.WrittenOutWordsDecode := by
  unfold Obligations.WrittenOutWordsDecode
  decide

/-- Settles O12: each line form packs one item, so its number is the item's. -/
theorem packedWordsAndItemNotation : Obligations.PackedWordsAndItemNotation := by
  refine ⟨fun r => ⟨packSample_toNat r, unpackWord_packSample r⟩, fun c d k code => ?_⟩
  have cmd (b : Byte) : (packSample ⟨true, b⟩).toNat = 256 + b.toNat := packSample_toNat _
  have line_state : ∀ code : BitVec 2, (lineStateByte code 0 0).toNat = 16 * code.toNat := by decide
  exact ⟨(packSample_toNat _).trans (zero_add _), cmd d, cmd _, (cmd _).trans (by rw [line_state])⟩

end Sys2Proof.Proofs.Encoding

namespace Sys2Proof.Proofs.Construction

/-! SUPPORT. The configuration check and construction (spec/10_state.md R26, R30, spec/60_exceptions.md R142). -/

open Machine Laws Classifier

/-- The defining bit set, in the arithmetic of R7. -/
theorem definingBit_eq_true_iff (d : Byte) : definingBit d = true ↔ d.toNat / 64 % 2 = 1 := by
  rw [← Bool.not_eq_false, definingBit_eq_false_iff]
  omega

/-- The check in terms of the four sentinels: bit 6 of each, and the six pairs as injectivity. -/
theorem configOK_iff (c : Config) : ConfigOK c ↔ 1 ≤ c.tsWidth ∧ (∀ k, definingBit (c.sentinelByte k) = true) ∧
    Function.Injective c.sentinelByte := by
  constructor
  · intro ok
    exact ⟨ok.1, sentinelByte_definingBit ⟨c, ok⟩, sentinelByte_injective ⟨c, ok⟩⟩
  · intro ⟨width, bit6, injective⟩
    have differ (k l : Sentinel) (kl : k ≠ l) : c.sentinelByte k ≠ c.sentinelByte l := injective.ne kl
    exact ⟨width, bit6 .start, bit6 .ending, bit6 .overflow, bit6 .noaction,
      differ .start .ending nofun, differ .start .overflow nofun, differ .start .noaction nofun,
      differ .ending .overflow nofun, differ .ending .noaction nofun, differ .overflow .noaction nofun⟩

/-- The reported clauses are those of the check: none is left out. -/
theorem configOK_iff_failedClauses_nil (c : Config) : ConfigOK c ↔ failedClauses c = [] := by
  simp [failedClauses, allClauses, clauseFails, ConfigOK, Config.sentinelByte, Nat.one_le_iff_ne_zero]

/-- Settles O14: the sentinels' clauses with bit 6 as a number, and the report's clauses one by one. -/
theorem configCheckIsItsClauses : Obligations.ConfigCheckIsItsClauses := by
  intro c
  have as_numbers := configOK_iff c
  simp only [definingBit_eq_true_iff] at as_numbers
  exact ⟨as_numbers, configOK_iff_failedClauses_nil c⟩

/-- Settles O15: a report without a clause would be that of a configuration that passes. -/
theorem constructionAdmitsOrRefuses : Obligations.ConstructionAdmitsOrRefuses := by
  refine ⟨fun c => dif_pos c.ok, fun c bad => ⟨dif_neg bad, ?reports, fun cl mem => (List.mem_filter.1 mem).2⟩⟩
  case reports =>
    exact List.exists_mem_of_ne_nil _ fun none_fails => bad ((configOK_iff_failedClauses_nil c).2 none_fails)

/-- Settles O16: the values written in the definition of the initial state. -/
theorem initialRegisters : Obligations.InitialRegisters := ⟨fun _ => ⟨rfl, rfl, rfl⟩, rfl, rfl, rfl⟩

end Sys2Proof.Proofs.Construction

namespace Sys2Proof.Proofs.OneCycle

/-! SUPPORT. One clock cycle as a whole (spec/42_handshake_timestamp.md sections 1 to 6). First that every step,
whatever the kind of its cycle, is one and the same function of the pins and the registers (R122); then what the record
of a cycle shows, by its acceptance; then the three things a cycle can do, said once: reset, pause, or take one
transaction step (R123). The statements about cycles and about runs are read off these. -/

open Machine Safety Laws FilterFsm HandshakeTimestamp Encoding

/-! ## Every step is the cycle on the pins -/

/-- The recorded signals of the cycle that `s` is in. -/
def cycleNow (s : State) : PortCycle := ⟨s.pins, outputsOf s.ctr s.pins (decisionNow s).action⟩

/-- The state in which that cycle ends. -/
def nextOf (s : State) : State := finishCycle s.pins (decisionNow s) s

section Fields
variable (s : State)

@[simp] theorem cycleNow_inputs : (cycleNow s).inputs = s.pins := rfl
@[simp] theorem cycleNow_outputs : (cycleNow s).outputs = outputsOf s.ctr s.pins (decisionNow s).action := rfl
@[simp] theorem cycleNow_accepted : (cycleNow s).accepted = acceptOf s.pins (decisionNow s).action := rfl
@[simp] theorem nextOf_cfg : (nextOf s).cfg = s.cfg := rfl
@[simp] theorem nextOf_state : (nextOf s).state = nextState s.state s.pins (decisionNow s) := rfl
@[simp] theorem nextOf_ctr :
    (nextOf s).ctr = nextCtr s.cfg.config.tsWidth s.ctr s.pins (decisionNow s).action := rfl
@[simp] theorem nextOf_pins : (nextOf s).pins = s.coming.headD Inputs.idle := rfl
@[simp] theorem nextOf_coming : (nextOf s).coming = s.coming.tail := rfl
@[simp] theorem nextOf_history : (nextOf s).history = cycleNow s :: s.history := rfl

end Fields

/-- The decision of the present cycle is the cell of the presented item's class. -/
theorem decisionNow_eq_transitionTable (s : State) :
    decisionNow s = transitionTable (classOf s.cfg.config s.pins.item) s.state :=
  decideItem_classify s.cfg s.pins.item s.state

/-- Every step, whatever the kind of its cycle, is the one cycle on the pins (R122, R145). -/
theorem step_eq_nextOf (s : State) : step s = .next (nextOf s) := by
  obtain ⟨-, reset⟩ | ⟨-, -, idle⟩ | ⟨running, valid, -⟩ := step_cases s
  · exact reset
  · exact idle
  · rw [step_item s running valid, itemClass_decode, ← decisionNow_eq_transitionTable, nextOf]

/-- The cycle that every state takes. -/
theorem cycleTaken_nextOf (s : State) : CycleTaken s (cycleNow s) (nextOf s) := ⟨step_eq_nextOf s, rfl, rfl⟩

theorem eq_nextOf_of_step {s t : State} (stepped : step s = .next t) : t = nextOf s := by
  rw [step_eq_nextOf] at stepped
  exact (Host.Outcome.next.inj stepped).symm

/-- No state takes another cycle. -/
theorem eq_of_cycleTaken {s t : State} {cyc : PortCycle} (taken : CycleTaken s cyc t) :
    cyc = cycleNow s ∧ t = nextOf s := by
  obtain ⟨stepped, recorded, -⟩ := taken
  obtain rfl := eq_nextOf_of_step stepped
  exact ⟨(List.cons.inj recorded).1.symm, rfl⟩

/-- R122's function computes the outputs and the register updates that the operations of the cycle give. -/
theorem cycleFunction_eq (c : Config) (st : FilterState) (n : Nat) (p : Inputs) :
    let d := decideItem st p.inIsCmd (classify c p.inIsCmd p.inData)
    cycleFunction c st n p = ⟨outputsOf n p d.action, nextState st p d, nextCtr c.tsWidth n p d.action⟩ := by
  unfold cycleFunction
  generalize decideItem st p.inIsCmd (classify c p.inIsCmd p.inData) = d
  obtain ⟨rst, valid, _, _, ready⟩ := p
  obtain ⟨_ | _, _⟩ := d <;> cases rst <;> cases valid <;> rfl

/-! ## What a record shows, by its acceptance (R113, R114) -/

/-- The event of an accepted item whose decision is to do `a`. -/
def actionEvent (n : Nat) (d : Byte) : Action → Option PacketEvent
  | .emit k => some ⟨n, d, kindFlags k⟩
  | .drop => none

section Record
variable (n : Nat) (p : Inputs) (a : Action)

/-- An event is delivered exactly when its item is accepted (R111, R114). -/
theorem acceptOf_emit (k : EventKind) : acceptOf p (.emit k) = (outValidOf p (.emit k) && p.outReady) := by
  obtain ⟨rst, valid, _, _, ready⟩ := p
  cases rst <;> cases valid <;> rfl

/-- A dropped item is accepted in every cycle that presents it outside reset (R111). -/
theorem acceptOf_drop : acceptOf p .drop = (!p.rst && p.inValid) := by
  obtain ⟨rst, valid, _, _, ready⟩ := p
  cases rst <;> cases valid <;> rfl

/-- Nothing is accepted in a reset cycle (R113). -/
theorem running_of_acceptOf (accepted : acceptOf p a = true) : p.rst = false := by
  by_contra reset
  simp [acceptOf, inReadyOf, reset] at accepted

/-- At a ready consumer every item presented outside reset is accepted. -/
theorem acceptOf_ready (running : p.rst = false) (valid : p.inValid = true) (ready : p.outReady = true) :
    acceptOf p a = true := by
  cases a with
  | emit k => exact acceptOf_emit_ready running valid ready
  | drop => rw [acceptOf_drop, running, valid]; rfl

theorem acceptedItem_outputsOf :
    PortCycle.acceptedItem ⟨p, outputsOf n p a⟩ = if acceptOf p a then some p.item else none := rfl

/-- The delivered event is that of the action, where the item is accepted. -/
theorem deliveredEvent_outputsOf :
    PortCycle.deliveredEvent ⟨p, outputsOf n p a⟩ = if acceptOf p a then actionEvent n p.inData a else none := by
  cases a with
  | drop => simp [PortCycle.deliveredEvent, outValidOf, actionEvent]
  | emit k =>
    rw [acceptOf_emit]
    cases presented : outValidOf p (.emit k) <;>
      simp [PortCycle.deliveredEvent, actionEvent, outFlagsOf, presented]

/-- The dropped item is the accepted one whose action has no event. -/
theorem droppedItem_outputsOf :
    PortCycle.droppedItem ⟨p, outputsOf n p a⟩ =
      if acceptOf p a && (actionEvent n p.inData a).isNone then some p.item else none := by
  have as_accept : PortCycle.droppedItem ⟨p, outputsOf n p a⟩ =
      if acceptOf p a && !outValidOf p a then some p.item else none := rfl
  cases a with
  | drop => rw [as_accept]; rfl
  | emit k =>
    rw [as_accept, acceptOf_emit]
    cases outValidOf p (.emit k) <;> simp [actionEvent]

end Record

/-! ## What a cycle can do -/

/-- R123's transaction step on the presented item. -/
def transactNow (s : State) : TransactResult := transact s.cfg.config s.state s.ctr s.pins.item

/-- R123's step in terms of the cycle's decision. -/
theorem transactNow_eq (s : State) : transactNow s =
    ⟨actionEvent s.ctr s.pins.inData (decisionNow s).action, (decisionNow s).next,
      (s.ctr + 1) % 2 ^ s.cfg.config.tsWidth⟩ := by
  unfold transactNow transact actionEvent
  rfl

/-- A reset cycle (R160, R161). -/
structure Resets (s : State) : Prop where
  reset : s.pins.rst = true
  item : (cycleNow s).acceptedItem = none
  event : (cycleNow s).deliveredEvent = none
  state : (nextOf s).state = .packetClosed
  ctr : (nextOf s).ctr = 0

/-- A cycle outside reset that accepts nothing: idle or stalled (R119, R121). -/
structure Pauses (s : State) : Prop where
  running : s.pins.rst = false
  item : (cycleNow s).acceptedItem = none
  event : (cycleNow s).deliveredEvent = none
  dropped : (cycleNow s).droppedItem = none
  state : (nextOf s).state = s.state
  ctr : (nextOf s).ctr = s.ctr

/-- A cycle that accepts its item: one transaction step (R123). -/
structure Transacts (s : State) : Prop where
  running : s.pins.rst = false
  item : (cycleNow s).acceptedItem = some s.pins.item
  event : (cycleNow s).deliveredEvent = (transactNow s).event
  dropped : (cycleNow s).droppedItem = if (transactNow s).event.isNone then some s.pins.item else none
  state : (nextOf s).state = (transactNow s).state
  ctr : (nextOf s).ctr = (transactNow s).ctr

theorem resets_of_rst {s : State} (reset : s.pins.rst = true) : Resets s := by
  have refused : acceptOf s.pins (decisionNow s).action = false := by simp [acceptOf, inReadyOf, reset]
  refine ⟨reset, ?_, ?_, ?_, ?_⟩ <;>
    simp [cycleNow, acceptedItem_outputsOf, deliveredEvent_outputsOf, nextState, nextCtr, reset, refused]

theorem pauses_of_refused {s : State} (running : s.pins.rst = false)
    (refused : acceptOf s.pins (decisionNow s).action = false) : Pauses s := by
  refine ⟨running, ?_, ?_, ?_, ?_, ?_⟩ <;>
    simp [cycleNow, acceptedItem_outputsOf, deliveredEvent_outputsOf, droppedItem_outputsOf, nextState, nextCtr,
      running, refused]

theorem transacts_of_accepted {s : State} (accepted : acceptOf s.pins (decisionNow s).action = true) :
    Transacts s := by
  have running := running_of_acceptOf _ _ accepted
  refine ⟨running, ?_, ?_, ?_, ?_, ?_⟩ <;>
    simp [cycleNow, transactNow_eq, acceptedItem_outputsOf, deliveredEvent_outputsOf, droppedItem_outputsOf, nextState,
      nextCtr, advanceCtr, running, accepted]

theorem transacts_of_ready {s : State} (running : s.pins.rst = false) (valid : s.pins.inValid = true)
    (ready : s.pins.outReady = true) : Transacts s :=
  transacts_of_accepted (acceptOf_ready _ _ running valid ready)

/-- Every cycle resets, pauses or takes one transaction step. -/
theorem cycle_cases (s : State) : Resets s ∨ Pauses s ∨ Transacts s := by
  cases rst : s.pins.rst with
  | true => exact .inl (resets_of_rst rst)
  | false =>
    cases accept : acceptOf s.pins (decisionNow s).action with
    | false => exact .inr (.inl (pauses_of_refused rst accept))
    | true => exact .inr (.inr (transacts_of_accepted accept))

end Sys2Proof.Proofs.OneCycle

namespace Sys2Proof.Proofs.CycleStatements

/-! SUPPORT. The statements about one cycle (spec/41_filter_fsm.md, spec/42_handshake_timestamp.md,
spec/70_reset_and_hazards.md), put together from the layer before. -/

open Machine Safety Laws Classifier FilterFsm HandshakeTimestamp Encoding OneCycle

/-! ## Emits and drops -/

/-- Every cell that drops keeps the state (R116). -/
theorem transitionTable_of_drop {k : ItemClass} {st : FilterState} (drops : (transitionTable k st).action = .drop) :
    transitionTable k st = ⟨.drop, st⟩ := by
  cases k <;> cases st <;> simp_all [transitionTable]

/-- R96, R98, R99: an instruction whose cells close a packet with an event of kind `k`, or drop where none is open. -/
theorem exec_closes {i : Instr} {s : State} {r : RawSample} {k : EventKind} (item : encode s.cfg.config i = r)
    (open_cell : transitionTable i.itemClass .packetOpen = ⟨.emit k, .packetClosed⟩)
    (closed_cell : transitionTable i.itemClass .packetClosed = ⟨.drop, .packetClosed⟩) :
    (s.state = .packetOpen → s.pins.outReady = true →
      exec i s = .next (afterCycle s (presentInputs r true) (eventOutputs true s.ctr r.data k) .packetClosed
        ((s.ctr + 1) % 2 ^ s.cfg.config.tsWidth))) ∧
    (s.state = .packetClosed →
      exec i s = .next (afterCycle s (presentInputs r s.pins.outReady) (quietOutputs true s.ctr r.data) .packetClosed
        ((s.ctr + 1) % 2 ^ s.cfg.config.tsWidth))) :=
  ⟨fun is_open ready => exec_emit_ready item (by rw [is_open, open_cell]) ready,
    fun closed => exec_drop item (by rw [closed, closed_cell])⟩

/-- The item of an LS_ERROR instruction (R55), bits 6, 5 and 4 written out. -/
theorem encode_lsError (c : Config) (top : BitVec 1) (low : BitVec 4) :
    encode c (.lsError top low) = ⟨true, top ++ 0b011#3 ++ low⟩ :=
  congrArg (RawSample.mk true) (append_clear_bit_code 3 top low).symm

/-- Exactly an emit has an event. -/
theorem actionEvent_isSome_iff {n : Nat} {d : Byte} {a : Action} :
    (actionEvent n d a).isSome = true ↔ ∃ k, a = .emit k := by
  cases a <;> simp [actionEvent]

/-- No kind sets two flags (R54). -/
theorem kindFlags_at_most_one (k : EventKind) :
    ([(kindFlags k).isStart, (kindFlags k).isEnd, (kindFlags k).isErr, (kindFlags k).isOvf].filter id).length ≤ 1 := by
  cases k <;> decide

/-- The delivered event of the present cycle, by its acceptance (R114). -/
theorem deliveredEvent_cycleNow (s : State) : (cycleNow s).deliveredEvent =
    if (cycleNow s).accepted then actionEvent s.ctr s.pins.inData (decisionNow s).action else none :=
  deliveredEvent_outputsOf ..

/-- An accepted item without an event was dropped, so its transaction keeps the state. -/
theorem transactNow_state_of_no_event {s : State} (no_event : (transactNow s).event = none) :
    (transactNow s).state = s.state := by
  rw [transactNow_eq, decisionNow_eq_transitionTable] at no_event ⊢
  cases action : (transitionTable (classOf s.cfg.config s.pins.item) s.state).action with
  | emit k => simp [action, actionEvent] at no_event
  | drop => rw [transitionTable_of_drop action]

/-! ## The statements -/

/-- Settles O35: the step is the one cycle on the pins, which is R122's function. -/
theorem stepIsTheCycleFunction : Obligations.StepIsTheCycleFunction := by
  intro s
  rw [cycleFunction_eq]
  exact step_eq_nextOf s

/-- Settles O30: the item's flags decide by its class, and so does every meaning. -/
theorem decisionIsTheTransitionTable : Obligations.DecisionIsTheTransitionTable := by
  refine ⟨decideItem_classify, fun i s wf => ?_⟩
  rw [decideItem_classify, classOf_encode _ _ wf, exec_eq_finishCycle]

/-- Settles O31: the cycle of an emitting cell at a consumer that is not ready. -/
theorem emitStallsUntilConsumerReady : Obligations.EmitStallsUntilConsumerReady := by
  intro i s k not_ready emits
  obtain ⟨st, cell⟩ : ∃ st, transitionTable i.itemClass s.state = ⟨.emit k, st⟩ := ⟨_, by rw [← emits]⟩
  rw [exec_eq_finishCycle, cell, not_ready, finishCycle_emit_stall]

/-- Settles O32: the cycle of a dropping cell, which keeps the state. -/
theorem dropIgnoresConsumer : Obligations.DropIgnoresConsumer := fun _ _ drops =>
  exec_drop rfl (transitionTable_of_drop drops)

/-- Settles O40: outside reset a cycle without an event pauses, or drops its item, which keeps the state. -/
theorem stateUpdateRule : Obligations.StateUpdateRule := by
  intro s
  refine ⟨_, _, cycleTaken_nextOf s, rfl, fun running no_event => ?_⟩
  obtain resets | pauses | transacts := cycle_cases s
  · simp [resets.reset] at running
  · exact pauses.state
  · rw [transacts.state]
    exact transactNow_state_of_no_event (transacts.event.symm.trans no_event)

/-- Settles O41: the record of an accepted item has the event of its action. -/
theorem deliveryIsAcceptanceOfAnEmit : Obligations.DeliveryIsAcceptanceOfAnEmit := by
  intro s
  refine ⟨_, _, cycleTaken_nextOf s, ?delivery, running_of_acceptOf _ _⟩
  rw [deliveredEvent_cycleNow]
  cases (cycleNow s).accepted with
  | false => simp
  | true => simpa [decisionNow] using actionEvent_isSome_iff

/-- Settles O44: a delivered event is that of an emit, with the flags of its kind. -/
theorem deliveredEventsHaveOneOfFiveKinds : Obligations.DeliveredEventsHaveOneOfFiveKinds := by
  intro s
  refine ⟨_, _, cycleTaken_nextOf s, fun e delivered => ?_⟩
  rw [deliveredEvent_cycleNow, Option.ite_none_right_eq_some] at delivered
  obtain ⟨-, event⟩ := delivered
  cases action : (decisionNow s).action with
  | drop => simp [action, actionEvent] at event
  | emit k =>
    rw [action, actionEvent, Option.some.injEq] at event
    subst event
    exact ⟨⟨k, rfl⟩, rfl, kindFlags_at_most_one k⟩

/-- Settles O45: a ready consumer takes every item, so the cycle transacts. -/
theorem readyCycleIsOneTransaction : Obligations.ReadyCycleIsOneTransaction := by
  intro s running valid ready
  have transacts := transacts_of_ready running valid ready
  exact ⟨_, _, cycleTaken_nextOf s, transacts.item, transacts.event, transacts.state, transacts.ctr⟩

/-- Settles O46: the decision reads the item and the state, and `out_valid` adds `rst` and `in_valid`. -/
theorem outputsDependOnlyOnTheirInputs : Obligations.OutputsDependOnlyOnTheirInputs := by
  intro s s' cfg
  refine ⟨_, _, _, _, cycleTaken_nextOf s, cycleTaken_nextOf s', id, id, fun state rst valid item => ?_⟩
  have decision : decisionNow s = decisionNow s' := by
    rw [decisionNow_eq_transitionTable, decisionNow_eq_transitionTable, cfg, state, item]
  have presented (a : Action) : outValidOf s.pins a = outValidOf s'.pins a := by
    simp only [outValidOf, rst, valid]
  simp only [cycleNow_outputs, outputsOf_outValid, outputsOf_outFlags, outputsOf_inReady, outFlagsOf, inReadyOf,
    presented, decision, rst, valid]
  exact ⟨trivial, trivial, fun ready => by rw [ready]⟩

/-- Settles O18: the reset cycle leaves the reset values and the held item, whose cycle is one transaction. -/
theorem itemAfterResetStartsAfresh : Obligations.ItemAfterResetStartsAfresh := by
  intro s r later reset coming
  have fresh := resets_of_rst reset
  have pins : (nextOf s).pins = presentInputs r true := by rw [nextOf_pins, coming]; rfl
  have transacts : Transacts (nextOf s) :=
    transacts_of_ready (by rw [pins]; rfl) (by rw [pins]; rfl) (by rw [pins]; rfl)
  have transaction : transactNow (nextOf s) = transact s.cfg.config .packetClosed 0 r := by
    rw [transactNow, nextOf_cfg, fresh.state, fresh.ctr, pins, presentInputs_item]
  refine ⟨_, _, _, step_eq_nextOf s, cycleTaken_nextOf (nextOf s), ?_, ?_, ?_, fun e delivered => ?_⟩
  · rw [transacts.state, transaction]
  · rw [transacts.ctr, transaction, transact, zero_add]
  · rw [transacts.event, transaction]
  · exact (delivered_timestamp_and_accept delivered).1.trans fresh.ctr

/-- Settles O21: CMD_START's cell emits START when closed and drops when open. -/
theorem startMarkerOpensPacket : Obligations.StartMarkerOpensPacket := by
  intro s
  refine ⟨fun closed ready => ?opens, fun is_open => ?spurious⟩
  case opens => exact exec_emit_ready rfl (by rw [closed]; rfl) ready
  case spurious => exact exec_drop rfl (by rw [is_open]; rfl)

/-- Settles O23: CMD_END's cell emits END when open and drops when closed. -/
theorem endMarkerClosesPacket : Obligations.EndMarkerClosesPacket := fun _ => exec_closes rfl rfl rfl

/-- Settles O26: CMD_OVF's cell emits OVF when open and drops when closed. -/
theorem overflowMarkerClosesPacket : Obligations.OverflowMarkerClosesPacket := fun _ => exec_closes rfl rfl rfl

/-- Settles O25: LS_ERROR's cell emits ERR when open and drops when closed. -/
theorem errorLineStateClosesPacket : Obligations.ErrorLineStateClosesPacket := fun _ top low =>
  exec_closes (encode_lsError _ top low) rfl rfl

/-- Settles O17: the step is the cycle on the pins, whatever its decision. -/
theorem resetCycleResetsTheRegisters : Obligations.ResetCycleResetsTheRegisters := fun s reset => by
  rw [step_eq_nextOf, nextOf, finishCycle_reset _ reset]

/-- Settles O33: the step is the cycle on the pins, whatever its decision. -/
theorem idleCycleKeepsTheRegisters : Obligations.IdleCycleKeepsTheRegisters := fun s running idle => by
  rw [step_eq_nextOf, nextOf, finishCycle_idle _ running idle]

/-- Settles O34: an item cycle runs the decoded item, and decoding and encoding are inverse to each other. -/
theorem stepRunsTheDecodedItem : Obligations.StepRunsTheDecodedItem := by
  have runs (s : State) (running : s.pins.rst = false) (valid : s.pins.inValid = true) :
      step s = exec (decode s.cfg.config s.pins.item) s := by simp [step, fetch, running, valid]
  refine ⟨fun s running valid => ⟨runs s running valid, wellFormed_decode _ _, encode_decode _ _⟩,
    fun s i ready wf pins => ?_⟩
  have item : s.pins.item = encode s.cfg.config i := by rw [pins, presentInputs_item]
  rw [runs s (by rw [pins]; rfl) (by rw [pins]; rfl), item, decode_encode _ _ wf]

/-- Settles O36: every step and every meaning is a whole cycle, which ends in a next state. -/
theorem noCycleFaults : Obligations.NoCycleFaults :=
  ⟨fun s => ⟨_, step_eq_nextOf s⟩, fun i s => ⟨_, exec_eq_finishCycle i s⟩⟩

/-- Settles O37: the fields of the next state. -/
theorem cycleFrame : Obligations.CycleFrame := fun s =>
  ⟨_, _, cycleTaken_nextOf s, nextOf_cfg s, nextOf_pins s, nextOf_coming s⟩

/-- Settles O38: `fetch` reads the configuration and the pins only. -/
theorem classificationIgnoresTheRegisters : Obligations.ClassificationIgnoresTheRegisters := fun s s' cfg pins => by
  rw [fetch, fetch, cfg, pins]

/-- Settles O43: at a ready consumer the item is accepted, so the counter advances. -/
theorem counterWrapsSilently : Obligations.CounterWrapsSilently := by
  intro s last running valid ready
  have accepted := acceptOf_ready _ (decisionNow s).action running valid ready
  refine ⟨_, _, cycleTaken_nextOf s, ?wraps, accepted, fun e delivered => ?timestamp⟩
  case wraps =>
    rw [(transacts_of_accepted accepted).ctr, transactNow_eq, last, Nat.sub_add_cancel Nat.one_le_two_pow, Nat.mod_self]
  case timestamp => rw [(delivered_timestamp_and_accept delivered).1, last]

end Sys2Proof.Proofs.CycleStatements

namespace Sys2Proof.Proofs.Invariants

/-! SUPPORT. The invariants of every run (spec/20_memory.md R46, R47, spec/41_filter_fsm.md R106,
spec/42_handshake_timestamp.md R123, R124). Each is kept by the three things a cycle can do: a reset empties the record
since the last reset, a pause adds nothing to its streams, and a transaction adds one item and its event. -/

open Machine Safety Laws HandshakeTimestamp Encoding OneCycle

/-! ## What one more cycle does to the record since the last reset -/

section SinceReset
variable {s : State}

/-- A reset cycle empties the record since the last reset. -/
theorem sinceReset_nextOf_reset (reset : s.pins.rst = true) : sinceReset (nextOf s).history = [] :=
  sinceReset_reset (cycleNow s) s.history reset

/-- Every other cycle adds itself. -/
theorem sinceReset_nextOf_running (running : s.pins.rst = false) :
    sinceReset (nextOf s).history = cycleNow s :: sinceReset s.history :=
  sinceReset_cycle (cycleNow s) s.history running

end SinceReset

/-! ## Every step keeps the invariants -/

/-- The registers and the events stay those of the transaction run: one more item is one more step of it. -/
theorem replays_nextOf {s : State} (replays : ReplaysAcceptedItems s) : ReplaysAcceptedItems (nextOf s) := by
  unfold ReplaysAcceptedItems at replays ⊢
  obtain resets | pauses | transacts := cycle_cases s
  · rw [sinceReset_nextOf_reset resets.reset, resets.state, resets.ctr]
    rfl
  · rw [sinceReset_nextOf_running pauses.running, acceptedItems_cons, deliveredEvents_cons, pauses.item, pauses.event,
      pauses.state, pauses.ctr]
    simpa using replays
  · rw [sinceReset_nextOf_running transacts.running, acceptedItems_cons, deliveredEvents_cons, transacts.item,
      transacts.event, transacts.state, transacts.ctr, nextOf_cfg, Option.toList_some, transactAll_append_one, replays]
    rfl

/-- The event of one transaction, where it has one, is framed, and the FSM state is the framing state after it. -/
theorem framing_transactNow (s : State) :
    framing s.state (transactNow s).event.toList = some (transactNow s).state := by
  rw [transactNow_eq, decisionNow_eq_transitionTable]
  cases classOf s.cfg.config s.pins.item <;> cases s.state <;> rfl

/-- The stream stays framed, and the FSM state is the framing state at its end. -/
theorem framed_nextOf {s : State} (framed : FramedSinceReset s) : FramedSinceReset (nextOf s) := by
  unfold FramedSinceReset at framed ⊢
  obtain resets | pauses | transacts := cycle_cases s
  · rw [sinceReset_nextOf_reset resets.reset, resets.state]
    rfl
  · rw [sinceReset_nextOf_running pauses.running, deliveredEvents_cons, pauses.event, pauses.state]
    simpa using framed
  · rw [sinceReset_nextOf_running transacts.running, deliveredEvents_cons, transacts.event, transacts.state,
      framing_append, framed, Option.bind_some, framing_transactNow]

/-- An accepted item is delivered or dropped, and counted. -/
theorem accounted_nextOf {s : State} (accounted : AccountedSinceReset s) : AccountedSinceReset (nextOf s) := by
  unfold AccountedSinceReset at accounted ⊢
  obtain ⟨balance, counted⟩ := accounted
  obtain resets | pauses | transacts := cycle_cases s
  · rw [sinceReset_nextOf_reset resets.reset, resets.ctr]
    simp
  · rw [sinceReset_nextOf_running pauses.running, acceptedItems_cons, deliveredEvents_cons, droppedItems_cons,
      pauses.item, pauses.event, pauses.dropped, pauses.ctr]
    simpa using ⟨balance, counted⟩
  · rw [sinceReset_nextOf_running transacts.running, acceptedItems_cons, deliveredEvents_cons, droppedItems_cons,
      transacts.item, transacts.event, transacts.dropped, transacts.ctr]
    refine ⟨?balance, ?counted⟩
    case balance => cases (transactNow s).event <;> simp [balance] <;> omega
    case counted => simp [transactNow_eq, counted]

/-- The counter stays below 2^N (R22). -/
theorem ctrInRange_nextOf {s : State} (in_range : CtrInRange s) : CtrInRange (nextOf s) := by
  have positive : 0 < 2 ^ s.cfg.config.tsWidth := Nat.two_pow_pos _
  unfold CtrInRange at in_range ⊢
  rw [nextOf_cfg]
  obtain resets | pauses | transacts := cycle_cases s
  · rw [resets.ctr]
    exact positive
  · rw [pauses.ctr]
    exact in_range
  · rw [transacts.ctr, transactNow_eq]
    exact Nat.mod_lt _ positive

/-- The four invariants together. -/
structure MeetsInvariants (s : State) : Prop where
  in_range : CtrInRange s
  replays : ReplaysAcceptedItems s
  framed : FramedSinceReset s
  accounted : AccountedSinceReset s

/-- The invariants hold in every initial state. -/
theorem meets_initial (c : AdmittedConfig) : MeetsInvariants (State.initial c) where
  in_range := Nat.two_pow_pos _
  replays := rfl
  framed := rfl
  accounted := ⟨rfl, (Nat.zero_mod _).symm⟩

/-- Every step keeps the four together. -/
theorem meets_nextOf {s : State} (meets : MeetsInvariants s) : MeetsInvariants (nextOf s) :=
  ⟨ctrInRange_nextOf meets.in_range, replays_nextOf meets.replays, framed_nextOf meets.framed,
    accounted_nextOf meets.accounted⟩

/-- Every run goes on and keeps them. -/
theorem runCycles_keeps (n : Nat) {s : State} (meets : MeetsInvariants s) :
    ∃ t, runCycles n s = .next t ∧ t.cfg = s.cfg ∧ MeetsInvariants t := by
  induction n generalizing s with
  | zero => exact ⟨s, rfl, rfl, meets⟩
  | succ n ih =>
    obtain ⟨t, run, cfg, kept⟩ := ih (meets_nextOf meets)
    exact ⟨t, (runCycles_next n (step_eq_nextOf s)).trans run, cfg, kept⟩

/-! ## What a framed stream looks like (R106) -/

/-- A framed stream is framed in two parts. -/
theorem framing_of_append {st last : FilterState} {xs ys : List PacketEvent}
    (framed : framing st (xs ++ ys) = some last) : ∃ mid, framing st xs = some mid ∧ framing mid ys = some last := by
  rw [framing_append] at framed
  exact Option.bind_eq_some_iff.1 framed

/-- A START event is read in the closed state and leads to the open one. -/
theorem framing_start {st last : FilterState} {a : PacketEvent} {rest : List PacketEvent}
    (start : a.flags.isStart = true) (framed : framing st (a :: rest) = some last) :
    st = .packetClosed ∧ framing .packetOpen rest = some last := by
  cases st with
  | packetClosed => simpa [framing, start] using framed
  | packetOpen => simp [framing, start] at framed

/-- A terminal event is read in the open state. -/
theorem framing_terminal {st last : FilterState} {a : PacketEvent} {rest : List PacketEvent}
    (not_start : a.flags.isStart = false) (terminal : a.flags.terminal = true)
    (framed : framing st (a :: rest) = some last) : st = .packetOpen := by
  cases st with
  | packetClosed => simp [framing, not_start, terminal] at framed
  | packetOpen => rfl

/-- Without a terminal event an open packet stays open. -/
theorem framing_open_of_no_terminal {ys : List PacketEvent} {mid : FilterState}
    (no_terminal : ∀ e ∈ ys, e.flags.terminal = false) (framed : framing .packetOpen ys = some mid) :
    mid = .packetOpen := by
  induction ys with
  | nil => exact (Option.some.inj framed).symm
  | cons y ys ih =>
    obtain ⟨y_inside, ys_inside⟩ := List.forall_mem_cons.1 no_terminal
    rw [framing] at framed
    split_ifs at framed with is_start is_terminal
    · simp [y_inside] at is_terminal
    · exact ih ys_inside framed

/-- Without a START event a closed stream stays closed. -/
theorem framing_closed_of_no_start {xs : List PacketEvent} {mid : FilterState}
    (no_start : ∀ e ∈ xs, e.flags.isStart = false) (framed : framing .packetClosed xs = some mid) :
    mid = .packetClosed := by
  induction xs with
  | nil => exact (Option.some.inj framed).symm
  | cons x xs ih =>
    obtain ⟨x_inside, xs_inside⟩ := List.forall_mem_cons.1 no_start
    rw [framing, if_neg (by simp [x_inside])] at framed
    split_ifs at framed with is_terminal
    · exact ih xs_inside framed

/-! ## The statements -/

/-- Settles O52: the next state is `nextOf`, which replays one item more, the same items or none. -/
theorem stepKeepsTheReplayedStream : Obligations.StepKeepsTheReplayedStream := fun _ _ replays stepped =>
  eq_nextOf_of_step stepped ▸ replays_nextOf replays

/-- Settles O53: the next state is `nextOf`, whose event, where it has one, the framing state admits. -/
theorem stepKeepsTheFraming : Obligations.StepKeepsTheFraming := fun _ _ framed stepped =>
  eq_nextOf_of_step stepped ▸ framed_nextOf framed

/-- Settles O54: the next state is `nextOf`, which counts one item more, the same items or none. -/
theorem stepKeepsTheAccounting : Obligations.StepKeepsTheAccounting := fun _ _ accounted stepped =>
  eq_nextOf_of_step stepped ▸ accounted_nextOf accounted

/-- Settles O51: the next state is `nextOf`, whose counter is 0, the same or one more modulo 2^N. -/
theorem counterStaysInRange : Obligations.CounterStaysInRange := fun _ _ in_range stepped =>
  eq_nextOf_of_step stepped ▸ ctrInRange_nextOf in_range

/-- Settles O56: after a START the packet is open and only a terminal event closes it; before a terminal event it is
open and only a START opens it. -/
theorem noTwoStartsWithoutTerminal : Obligations.NoTwoStartsWithoutTerminal := by
  intro s framed
  refine ⟨fun xs a ys b zs stream start_a start_b => ?starts, fun xs a zs stream not_start terminal => ?terminal⟩
  case starts =>
    by_contra none_between
    rw [FramedSinceReset, stream] at framed
    obtain ⟨_, -, from_a⟩ := framing_of_append framed
    obtain ⟨mid, between, from_b⟩ := framing_of_append (framing_start start_a from_a).2
    have still_open := framing_open_of_no_terminal (by simpa using none_between) between
    have closed := (framing_start start_b from_b).1
    simp [still_open] at closed
  case terminal =>
    by_contra none_before
    rw [FramedSinceReset, stream] at framed
    obtain ⟨mid, before, from_a⟩ := framing_of_append framed
    have still_closed := framing_closed_of_no_start (by simpa using none_before) before
    have is_open := framing_terminal not_start terminal from_a
    simp [still_closed] at is_open

/-- Settles O57: a delivered event carries the counter, which the accounting gives. -/
theorem timestampCountsAcceptedItems : Obligations.TimestampCountsAcceptedItems := by
  intro s ⟨_, counted⟩
  refine ⟨_, _, cycleTaken_nextOf s, fun e delivered => ?_⟩
  rw [(delivered_timestamp_and_accept delivered).1, counted]

/-- Settles O58: the invariants do not read the pins, so they hold before the run, and every run keeps them. -/
theorem everyRunIsFramedAndAccounted : Obligations.EveryRunIsFramedAndAccounted := by
  intro c ps n
  have meets : MeetsInvariants (withInputs (State.initial c) ps) := by
    obtain ⟨in_range, replays, framed, accounted⟩ := meets_initial c
    exact ⟨in_range, replays, framed, accounted⟩
  obtain ⟨t, run, cfg, in_range, replays, framed, accounted⟩ := runCycles_keeps n meets
  exact ⟨t, run, cfg, in_range, replays, framed, accounted⟩

/-- Settles O55: the host's reset state is the initial state under REF. -/
theorem initialStatesMeetTheInvariants : Obligations.InitialStatesMeetTheInvariants := by
  have all (c : AdmittedConfig) : CtrInRange (State.initial c) ∧ ReplaysAcceptedItems (State.initial c) ∧
      FramedSinceReset (State.initial c) ∧ AccountedSinceReset (State.initial c) := by
    obtain ⟨in_range, replays, framed, accounted⟩ := meets_initial c
    exact ⟨in_range, replays, framed, accounted⟩
  exact ⟨all, all AdmittedConfig.ref⟩

end Sys2Proof.Proofs.Invariants

namespace Sys2Proof.Proofs.Runs

/-! SUPPORT. Runs of several cycles (spec/20_memory.md R45, R46, spec/42_handshake_timestamp.md section 4,
spec/60_exceptions.md R150, spec/70_reset_and_hazards.md R167, R170): stalled items, streams of accepted items, and
instances side by side. -/

open Machine Safety Laws HandshakeTimestamp Encoding OneCycle

/-! ## Stalled cycles (R119) -/

/-- R165: a producer that keeps its duty still presents an item that was presented and not accepted. -/
theorem held_of_producerHolds {earlier : PortCycle} {later : Inputs} (valid : earlier.inputs.inValid = true)
    (refused : earlier.outputs.inReady = false) (running : earlier.inputs.rst = false)
    (still_running : later.rst = false) (holds : producerHolds earlier later = true) :
    later.inValid = true ∧ later.item = earlier.inputs.item := by
  simpa [producerHolds, valid, refused, running, still_running] using holds

/-- `s` with more finished cycles on record. -/
def recordCycles (s : State) (cs : List PortCycle) : State := { s with history := cs ++ s.history }

/-- The stalled cycle of an item whose decision is to emit. -/
def stallCycle (s : State) (r : RawSample) (k : EventKind) : PortCycle :=
  ⟨presentInputs r false, eventOutputs false s.ctr r.data k⟩

/-- A stalled cycle leaves nothing but itself on record. -/
theorem nextOf_stall {s : State} {r : RawSample} {k : EventKind}
    (emits : (decideItem s.state r.isCmd (classify s.cfg.config r.isCmd r.data)).action = .emit k) (ps : List Inputs) :
    nextOf (withInputs s (presentInputs r false :: ps)) = withInputs (recordCycles s [stallCycle s r k]) ps := by
  obtain ⟨st, decision⟩ : ∃ st, decisionNow (withInputs s (presentInputs r false :: ps)) = ⟨.emit k, st⟩ :=
    ⟨_, congrArg (Decision.mk · _) emits⟩
  rw [nextOf, decision]
  exact finishCycle_emit_stall r k st _

/-- Any number of stalled cycles leave nothing but themselves on record. -/
theorem runCycles_stalls (n m : Nat) {s : State} {r : RawSample} {k : EventKind}
    (emits : (decideItem s.state r.isCmd (classify s.cfg.config r.isCmd r.data)).action = .emit k) (ps : List Inputs) :
    runCycles (m + n) (withInputs s (List.replicate n (presentInputs r false) ++ ps)) =
      runCycles m (withInputs (recordCycles s (List.replicate n (stallCycle s r k))) ps) := by
  induction n generalizing s with
  | zero => rfl
  | succ n ih =>
    have first := step_eq_nextOf (withInputs s (List.replicate (n + 1) (presentInputs r false) ++ ps))
    rw [List.replicate_succ, List.cons_append, nextOf_stall emits] at first
    have record : recordCycles (recordCycles s [stallCycle s r k]) (List.replicate n (stallCycle s r k)) =
        recordCycles s (List.replicate (n + 1) (stallCycle s r k)) := by
      simp [recordCycles, List.replicate_succ']
    rw [← record, List.replicate_succ, List.cons_append, ← Nat.add_assoc, runCycles_next _ first]
    exact ih (s := recordCycles s [stallCycle s r k]) emits

/-- A stalled cycle accepts and delivers nothing, so any number of them leaves the streams as they were. -/
theorem streams_after_stalls (n : Nat) (s : State) (r : RawSample) (k : EventKind) (older : List PortCycle) :
    acceptedItems (List.replicate n (stallCycle s r k) ++ older) = acceptedItems older ∧
    deliveredEvents (List.replicate n (stallCycle s r k) ++ older) = deliveredEvents older := by
  have quiet : (stallCycle s r k).acceptedItem = none ∧ (stallCycle s r k).deliveredEvent = none := ⟨rfl, rfl⟩
  induction n with
  | zero => exact ⟨rfl, rfl⟩
  | succ n ih => simp [List.replicate_succ, quiet, ih]

/-! ## Transactions and instances -/

/-- Every transaction advances the counter by one. -/
theorem transactAll_ctr (c : Config) (st : FilterState) {n : Nat} (rs : List RawSample) (in_range : n < 2 ^ c.tsWidth) :
    (transactAll c st n rs).ctr = (n + rs.length) % 2 ^ c.tsWidth := by
  induction rs generalizing st n with
  | nil => exact (Nat.mod_eq_of_lt in_range).symm
  | cons r rs ih =>
    have next_in_range : (n + 1) % 2 ^ c.tsWidth < 2 ^ c.tsWidth := Nat.mod_lt _ (Nat.two_pow_pos _)
    have rest := ih (transact c st n r).state next_in_range
    rw [Nat.mod_add_mod, Nat.add_assoc, Nat.add_comm 1] at rest
    exact rest

/-- The bench steps each state by itself. -/
theorem stepBench_eq_map (ss : List State) : stepBench ss = .next (ss.map nextOf) := by
  induction ss with
  | nil => rfl
  | cons s ss ih => simp [stepBench, step_eq_nextOf, ih]

/-! ## The statements -/

/-- Settles O47: a stalled cycle pauses, so the held item meets the same registers and gets the same decision. -/
theorem heldItemKeepsItsEventPresented : Obligations.HeldItemKeepsItsEventPresented := by
  intro s t cyc taken stalled running holds
  obtain ⟨rfl, rfl⟩ := eq_of_cycleTaken taken
  obtain ⟨presented, not_ready⟩ : outValidOf s.pins (decisionNow s).action = true ∧ s.pins.outReady = false := by
    simpa [PortCycle.stalled] using stalled
  obtain ⟨s_running, valid, k, emits⟩ := outValidOf_iff.1 presented
  have refused : acceptOf s.pins (decisionNow s).action = false := by
    rw [emits, acceptOf_emit, not_ready, Bool.and_false]
  have pauses := pauses_of_refused s_running refused
  have in_ready : inReadyOf s.pins (decisionNow s).action = false := by simpa [acceptOf, valid] using refused
  obtain ⟨held_valid, held⟩ := held_of_producerHolds valid in_ready s_running running holds
  rw [cycleNow_inputs] at held
  have decision : decisionNow (nextOf s) = decisionNow s := by
    rw [decisionNow_eq_transitionTable, decisionNow_eq_transitionTable, nextOf_cfg, pauses.state, held]
  have presented_again : outValidOf (nextOf s).pins (decisionNow s).action = true :=
    outValidOf_iff.2 ⟨running, held_valid, k, emits⟩
  refine ⟨pauses.state, pauses.ctr, _, _, cycleTaken_nextOf (nextOf s), ?valid, pauses.ctr,
    congrArg RawSample.data held, ?flags⟩
  case valid => rw [cycleNow_outputs, outputsOf_outValid, decision, presented_again]
  case flags =>
    rw [cycleNow_outputs, cycleNow_outputs, outputsOf_outFlags, outputsOf_outFlags, decision, emits]
    rw [emits] at presented presented_again
    simp only [outFlagsOf, presented, presented_again]

/-- Settles O48: the stalled cycles leave only themselves on record, and the last cycle is that of the item accepted at
once. -/
theorem stalledThenAcceptedIsAcceptedOnce : Obligations.StalledThenAcceptedIsAcceptedOnce := by
  intro s r n later k emits
  have stalls := runCycles_stalls n 1 emits (presentInputs r true :: later)
  obtain ⟨items, events⟩ := streams_after_stalls n s r k s.history
  refine ⟨nextOf (withInputs (recordCycles s (List.replicate n (stallCycle s r k))) (presentInputs r true :: later)),
    nextOf (withInputs s (presentInputs r true :: later)), ?run, step_eq_nextOf _, rfl, rfl, rfl, rfl, rfl, rfl,
    ?cycles, congrArg (· ++ _) items, congrArg (· ++ _) events⟩
  case run =>
    rw [Nat.add_comm, stalls, runCycles_next _ (step_eq_nextOf _)]
    rfl
  case cycles =>
    simp only [nextOf_history, List.length_cons, withInputs, recordCycles, List.length_append, List.length_replicate]
    omega

/-- Settles O49: by induction on the items; each cycle transacts, and the next one starts from its registers. -/
theorem readyStreamIsItsTransactions : Obligations.ReadyStreamIsItsTransactions := by
  intro s rs
  induction rs generalizing s with
  | nil => exact ⟨_, rfl, by simp [withInputs], by simp [withInputs, transactAll], rfl, rfl⟩
  | cons r rs ih =>
    have transacts : Transacts (withInputs s [presentInputs r true]) := transacts_of_ready rfl rfl rfl
    obtain ⟨t, run, items, events, state, ctr⟩ := ih (nextOf (withInputs s [presentInputs r true]))
    rw [nextOf_history, acceptedItems_cons, transacts.item] at items
    rw [nextOf_history, deliveredEvents_cons, transacts.event, transacts.state, transacts.ctr] at events
    rw [transacts.state, transacts.ctr] at state ctr
    refine ⟨t, (runCycles_next _ (step_eq_nextOf _)).trans run, ?items, ?events, state, ctr⟩
    case items =>
      rw [items, List.append_assoc]
      rfl
    case events =>
      rw [events, List.append_assoc]
      rfl

/-- Settles O50: 2^N steps of the counter modulo 2^N. -/
theorem timestampsRepeatAfterTwoToTheN : Obligations.TimestampsRepeatAfterTwoToTheN := by
  intro c st n rs in_range length
  rw [transactAll_ctr _ _ _ in_range, length, Nat.add_mod_right, Nat.mod_eq_of_lt in_range]

/-- Settles O59: the bench maps each state to its own next state. -/
theorem instancesAreIndependent : Obligations.InstancesAreIndependent := fun ss =>
  ⟨ss.map nextOf, stepBench_eq_map ss, List.length_map _, fun n s at_n =>
    ⟨nextOf s, by rw [List.getElem?_map, at_n]; rfl, step_eq_nextOf s⟩⟩

end Sys2Proof.Proofs.Runs
